-- ==== Sys2Proof/Word.lean ====
section
/-!
DEFINITION. The word types of the machine and their plainest arithmetic (00_scope.md R8, R9): every value is an
unsigned integer of 4, 8, 12 or 16 bits.
-/

namespace Sys2Proof

/-- A memory byte, a V register, a timer (R9: 8 bits). -/
abbrev Byte := BitVec 8

/-- An instruction word, PC, I, a stack entry (R9: 16 bits). -/
abbrev Word := BitVec 16

/-- The 12-bit immediate NNN (R82). -/
abbrev Addr12 := BitVec 12

/-- A 4-bit field: a register index X or Y, a height N, a key number (R9, R82). -/
abbrev Nibble := BitVec 4

/-- A register index: any 4-bit value names a register that exists (10_state.md R21). -/
abbrev Reg := Nibble

/-- `trunc8(v) = v mod 256` (R9). -/
def trunc8 (n : Nat) : Byte := BitVec.ofNat 8 n

/-- `trunc16(v) = v mod 65536` (R9). -/
def trunc16 (n : Nat) : Word := BitVec.ofNat 16 n

end Sys2Proof
end

