-- ==== Sys2Proof/Syntax.lean ====
section
/-!
DEFINITION. The instructions: one constructor per row of spec/opcode_table.json (30_encoding.md R84, R87), each with
the operand fields its row gives it (R81, R82), those that the instruction ignores included.
-/

namespace Sys2Proof

/-- An instruction. The docstring of a constructor gives its opcode pattern and the rule of its meaning. -/
inductive Instr where
  /-- 00E0 CLS (R171). -/
  | cls
  /-- 00EE RET (R102). -/
  | ret
  /-- 0NNN SYS nnn (R101). -/
  | sys (nnn : Addr12)
  /-- 1NNN JP nnn (R103). -/
  | jp (nnn : Addr12)
  /-- 2NNN CALL nnn (R104). -/
  | call (nnn : Addr12)
  /-- 3XNN SE Vx, nn (R106). -/
  | seImm (x : Reg) (nn : Byte)
  /-- 4XNN SNE Vx, nn (R107). -/
  | sneImm (x : Reg) (nn : Byte)
  /-- 5XY0 SE Vx, Vy (R108). -/
  | seReg (x y : Reg)
  /-- 6XNN LD Vx, nn (R131). -/
  | ldImm (x : Reg) (nn : Byte)
  /-- 7XNN ADD Vx, nn (R132). -/
  | addImm (x : Reg) (nn : Byte)
  /-- 8XY0 LD Vx, Vy (R133). -/
  | ldReg (x y : Reg)
  /-- 8XY1 OR Vx, Vy (R134). -/
  | orReg (x y : Reg)
  /-- 8XY2 AND Vx, Vy (R135). -/
  | andReg (x y : Reg)
  /-- 8XY3 XOR Vx, Vy (R136). -/
  | xorReg (x y : Reg)
  /-- 8XY4 ADD Vx, Vy (R137). -/
  | addReg (x y : Reg)
  /-- 8XY5 SUB Vx, Vy (R138). -/
  | sub (x y : Reg)
  /-- 8XY6 SHR Vx (R139); y is encoded and ignored. -/
  | shr (x y : Reg)
  /-- 8XY7 SUBN Vx, Vy (R140). -/
  | subn (x y : Reg)
  /-- 8XYE SHL Vx (R141); y is encoded and ignored. -/
  | shl (x y : Reg)
  /-- 9XY0 SNE Vx, Vy (R109). -/
  | sneReg (x y : Reg)
  /-- ANNN LD I, nnn (R220). -/
  | ldI (nnn : Addr12)
  /-- BNNN JP V0, nnn (R105). -/
  | jpV0 (nnn : Addr12)
  /-- CXNN RND Vx, nn (R145). -/
  | rnd (x : Reg) (nn : Byte)
  /-- DXYN DRW Vx, Vy, n (R173). -/
  | drw (x y : Reg) (n : Nibble)
  /-- EX9E SKP Vx (R191). -/
  | skp (x : Reg)
  /-- EXA1 SKNP Vx (R192). -/
  | sknp (x : Reg)
  /-- FX07 LD Vx, DT (R193). -/
  | ldVxDt (x : Reg)
  /-- FX0A LD Vx, K (R194). -/
  | ldVxK (x : Reg)
  /-- FX15 LD DT, Vx (R197). -/
  | ldDtVx (x : Reg)
  /-- FX18 LD ST, Vx (R198). -/
  | ldStVx (x : Reg)
  /-- FX1E ADD I, Vx (R221). -/
  | addIVx (x : Reg)
  /-- FX29 LD F, Vx (R222). -/
  | ldFVx (x : Reg)
  /-- FX33 LD B, Vx (R223). -/
  | ldBVx (x : Reg)
  /-- FX55 LD [I], Vx (R224). -/
  | ldMemVx (x : Reg)
  /-- FX65 LD Vx, [I] (R225). -/
  | ldVxMem (x : Reg)
  /-- Any word that selects no instruction (R85); it keeps the whole word. -/
  | unrecognised (w : Word)
  deriving DecidableEq, Repr

end Sys2Proof
end

