-- ==== Sys2Proof/Decode.lean ====
section
/-!
DEFINITION. The decoder, total on 16-bit words (30_encoding.md R83, R84, R85) and on byte lists, where it rejects by
name a list too short to hold a word; the encoder written from the same table; and the host's entry point on the
opcode table's own numbering of bits.
-/

namespace Sys2Proof

/-- `c = w[15:12]`, the class (R81). -/
def fieldC (w : Word) : Nibble := w.extractLsb' 12 4

/-- `x = w[11:8]` (R81). -/
def fieldX (w : Word) : Reg := w.extractLsb' 8 4

/-- `y = w[7:4]` (R81). -/
def fieldY (w : Word) : Reg := w.extractLsb' 4 4

/-- `n = w[3:0]` (R81). -/
def fieldN (w : Word) : Nibble := w.extractLsb' 0 4

/-- `nn = w[7:0]` (R81). -/
def fieldNN (w : Word) : Byte := w.extractLsb' 0 8

/-- `nnn = w[11:0]` (R81). -/
def fieldNNN (w : Word) : Addr12 := w.extractLsb' 0 12

/-- Class 8 selects on n (R84, R142). -/
def decodeClass8 (w : Word) : Instr :=
  let x := fieldX w
  let y := fieldY w
  match (fieldN w).toNat with
  | 0x0 => .ldReg x y
  | 0x1 => .orReg x y
  | 0x2 => .andReg x y
  | 0x3 => .xorReg x y
  | 0x4 => .addReg x y
  | 0x5 => .sub x y
  | 0x6 => .shr x y
  | 0x7 => .subn x y
  | 0xE => .shl x y
  | _ => .unrecognised w

/-- Class E selects on the whole low byte (R84; 90_conflicts.md C3). -/
def decodeClassE (w : Word) : Instr :=
  match (fieldNN w).toNat with
  | 0x9E => .skp (fieldX w)
  | 0xA1 => .sknp (fieldX w)
  | _ => .unrecognised w

/-- Class F selects on the whole low byte (R84; 90_conflicts.md C3). -/
def decodeClassF (w : Word) : Instr :=
  let x := fieldX w
  match (fieldNN w).toNat with
  | 0x07 => .ldVxDt x
  | 0x0A => .ldVxK x
  | 0x15 => .ldDtVx x
  | 0x18 => .ldStVx x
  | 0x1E => .addIVx x
  | 0x29 => .ldFVx x
  | 0x33 => .ldBVx x
  | 0x55 => .ldMemVx x
  | 0x65 => .ldVxMem x
  | _ => .unrecognised w

/-- The dispatch on the class nibble (R84, after the two literal tests). -/
def decodeClass (w : Word) : Instr :=
  match (fieldC w).toNat with
  | 0x0 => .sys (fieldNNN w)
  | 0x1 => .jp (fieldNNN w)
  | 0x2 => .call (fieldNNN w)
  | 0x3 => .seImm (fieldX w) (fieldNN w)
  | 0x4 => .sneImm (fieldX w) (fieldNN w)
  | 0x5 => if fieldN w = 0#4 then .seReg (fieldX w) (fieldY w) else .unrecognised w
  | 0x6 => .ldImm (fieldX w) (fieldNN w)
  | 0x7 => .addImm (fieldX w) (fieldNN w)
  | 0x8 => decodeClass8 w
  | 0x9 => if fieldN w = 0#4 then .sneReg (fieldX w) (fieldY w) else .unrecognised w
  | 0xA => .ldI (fieldNNN w)
  | 0xB => .jpV0 (fieldNNN w)
  | 0xC => .rnd (fieldX w) (fieldNN w)
  | 0xD => .drw (fieldX w) (fieldY w) (fieldN w)
  | 0xE => decodeClassE w
  | _ => decodeClassF w

/-- The decoder: the literal words first, then the class (R83, R84). -/
def decode (w : Word) : Instr :=
  if w = 0x00E0#16 then .cls
  else if w = 0x00EE#16 then .ret
  else decodeClass w

/-- A word from its two bytes as memory holds them: the byte at the lower address is the high byte
(20_memory.md R62). -/
def wordOfBytes (hi lo : Byte) : Word := hi ++ lo

/-- Why a byte list holds no instruction. -/
inductive DecodeError where
  /-- Fewer than the two bytes every instruction has (R80). -/
  | truncated
  deriving DecidableEq, Repr

/-- The decoder on bytes: it takes exactly two (R80) and gives back the rest. -/
def decodeBytes : List Byte → Except DecodeError (Instr × List Byte)
  | hi :: lo :: rest => .ok (decode (wordOfBytes hi lo), rest)
  | _ => .error .truncated

/-- Shape NNN (R81). -/
def encNNN (c : Nibble) (nnn : Addr12) : Word := c ++ nnn

/-- Shape X NN (R81). -/
def encXNN (c : Nibble) (x : Reg) (nn : Byte) : Word := c ++ x ++ nn

/-- Shapes X Y and X Y N (R81). -/
def encXYN (c : Nibble) (x y : Reg) (n : Nibble) : Word := c ++ x ++ y ++ n

/-- The word of an instruction, from the rows of spec/opcode_table.json. -/
def encode : Instr → Word
  | .cls => 0x00E0#16
  | .ret => 0x00EE#16
  | .sys nnn => encNNN 0x0#4 nnn
  | .jp nnn => encNNN 0x1#4 nnn
  | .call nnn => encNNN 0x2#4 nnn
  | .seImm x nn => encXNN 0x3#4 x nn
  | .sneImm x nn => encXNN 0x4#4 x nn
  | .seReg x y => encXYN 0x5#4 x y 0x0#4
  | .ldImm x nn => encXNN 0x6#4 x nn
  | .addImm x nn => encXNN 0x7#4 x nn
  | .ldReg x y => encXYN 0x8#4 x y 0x0#4
  | .orReg x y => encXYN 0x8#4 x y 0x1#4
  | .andReg x y => encXYN 0x8#4 x y 0x2#4
  | .xorReg x y => encXYN 0x8#4 x y 0x3#4
  | .addReg x y => encXYN 0x8#4 x y 0x4#4
  | .sub x y => encXYN 0x8#4 x y 0x5#4
  | .shr x y => encXYN 0x8#4 x y 0x6#4
  | .subn x y => encXYN 0x8#4 x y 0x7#4
  | .shl x y => encXYN 0x8#4 x y 0xE#4
  | .sneReg x y => encXYN 0x9#4 x y 0x0#4
  | .ldI nnn => encNNN 0xA#4 nnn
  | .jpV0 nnn => encNNN 0xB#4 nnn
  | .rnd x nn => encXNN 0xC#4 x nn
  | .drw x y n => encXYN 0xD#4 x y n
  | .skp x => encXNN 0xE#4 x 0x9E#8
  | .sknp x => encXNN 0xE#4 x 0xA1#8
  | .ldVxDt x => encXNN 0xF#4 x 0x07#8
  | .ldVxK x => encXNN 0xF#4 x 0x0A#8
  | .ldDtVx x => encXNN 0xF#4 x 0x15#8
  | .ldStVx x => encXNN 0xF#4 x 0x18#8
  | .addIVx x => encXNN 0xF#4 x 0x1E#8
  | .ldFVx x => encXNN 0xF#4 x 0x29#8
  | .ldBVx x => encXNN 0xF#4 x 0x33#8
  | .ldMemVx x => encXNN 0xF#4 x 0x55#8
  | .ldVxMem x => encXNN 0xF#4 x 0x65#8
  | .unrecognised w => w

/-- The high byte of a word: it lies at the lower address (20_memory.md R62). -/
def highByte (w : Word) : Byte := w.extractLsb' 8 8

/-- The low byte of a word. -/
def lowByte (w : Word) : Byte := w.extractLsb' 0 8

/-- The bytes of a word in the order memory holds them (20_memory.md R62). -/
def bytesOfWord (w : Word) : List Byte := [highByte w, lowByte w]

/-- The word that the opcode table's bit string of `nbits` bits stands for: the table numbers bit 0 as the least
significant bit of the one word every instruction has (R8, R80), and bits above `nbits` are 0. -/
def tableWord (nbits w : Nat) : Word := trunc16 (w % 2 ^ nbits)

/-- What the decoder reads from the table's bits, laid out as memory holds them. -/
def decodeTableWord (nbits w : Nat) : Option Instr :=
  match decodeBytes (bytesOfWord (tableWord nbits w)) with
  | .ok (i, _) => some i
  | .error _ => none

end Sys2Proof
end

