-- ==== Sys2Proof/Config.lean ====
section
/-!
DEFINITION. What an implementation fixes (00_scope.md R7; the parameter table of 92_eei_decisions.md) and the one
free value. The parameters are a record that the state carries and no action writes, so that a statement about every
state holds for every value of them (log 1); the defaults stand in Machine/Defaults.lean.
-/

namespace Sys2Proof

/-- The 80 bytes of the font table (20_memory.md R68). -/
abbrev Font := Vector Byte 80

/-- The parameters of a machine (10_state.md R36). -/
structure Config where
  /-- STACK_CAPACITY, a natural ≥ 1 (D5). -/
  stackCapacity : Nat
  /-- FONT (D6). -/
  font : Font
  /-- TIMER_TICK_ENABLED (D18). -/
  timerTickEnabled : Bool
  /-- SHL_FLAG_NORMALISED, optional (D14). -/
  shlFlagNormalised : Bool
  deriving DecidableEq, Repr

/-- `rand8()` (41_register_alu.md R145): the byte that the k-th random draw of a run delivers. FREE VALUE: it has no
body, so nothing proved here depends on what it is (D25, K5; log 3). -/
opaque Config.freeByte : Nat → Byte

end Sys2Proof
end

