-- ==== Sys2Proof/Machine/Defaults.lean ====
section
/-!
DEFINITION. The default of every parameter: what `State.reset` is built from.
-/

namespace Sys2Proof.Machine

/-- The default FONT, the table of 20_memory.md R68 (PRESUMED by the spec itself: from general knowledge, GK2; log 2). -/
def defaultFont : Font := #v[
  0xF0, 0x90, 0x90, 0x90, 0xF0,  0x20, 0x60, 0x20, 0x20, 0x70,
  0xF0, 0x10, 0xF0, 0x80, 0xF0,  0xF0, 0x10, 0xF0, 0x10, 0xF0,
  0x90, 0x90, 0xF0, 0x10, 0x10,  0xF0, 0x80, 0xF0, 0x10, 0xF0,
  0xF0, 0x80, 0xF0, 0x90, 0xF0,  0xF0, 0x10, 0x20, 0x40, 0x40,
  0xF0, 0x90, 0xF0, 0x90, 0xF0,  0xF0, 0x90, 0xF0, 0x10, 0xF0,
  0xF0, 0x90, 0xF0, 0x90, 0x90,  0xE0, 0x90, 0xE0, 0x90, 0xE0,
  0xF0, 0x80, 0x80, 0x80, 0xF0,  0xE0, 0x90, 0x90, 0x90, 0xE0,
  0xF0, 0x80, 0xF0, 0x80, 0xF0,  0xF0, 0x80, 0xF0, 0x80, 0x80]

/-- The defaults of 92_eei_decisions.md's parameter table. -/
def defaultConfig : Config where
  stackCapacity := 100
  font := defaultFont
  timerTickEnabled := false
  shlFlagNormalised := false

/-- PC_RESET (00_scope.md R6; 70_reset_and_hazards.md R282). -/
def pcReset : Word := 0x200#16

end Sys2Proof.Machine
end

