-- ==== Sys2Proof/Machine/State.lean ====
section
/-!
DEFINITION. The state as plain data: the tuple of 10_state.md R20, the parameters the machine was created with
(R36; log 1) and the count of random draws (log 3); how a step can stop; and the state right after reset.
-/

namespace Sys2Proof.Machine

/-- MEM (20_memory.md R60): the bytes that differ from the boot content, as (address, byte) pairs with addresses
strictly rising. An unlisted address reads as `Memory.boot` says (Machine/Ops.lean). -/
abbrev Memory := List Host.Cell

/-- DISP (10_state.md R32): 64 columns of 32 cells, `DISP[x][y]`. -/
abbrev Display := Vector (Vector Bool 32) 64

/-- The two fatal faults (60_exceptions.md R250). -/
inductive FaultKind where
  /-- CALL with SP = STACK_CAPACITY. -/
  | stackOverflow
  /-- RET with SP = 0. -/
  | stackUnderflow
  deriving DecidableEq, Repr

/-- STATUS (10_state.md R35). -/
inductive Status where
  /-- A step runs the instruction at PC. -/
  | run
  /-- FX0A at PC is suspended; x is its destination register. -/
  | waitKey (x : Reg)
  /-- The instance is aborted: the kind, PC and word of the faulting instruction. -/
  | fault (kind : FaultKind) (pc word : Word)
  deriving DecidableEq, Repr

/-- The machine's state. -/
structure State where
  /-- MEM (R60). -/
  mem : Memory
  /-- V0 to VF (R21). -/
  v : Vector Byte 16
  /-- I (R27). -/
  i : Word
  /-- PC (R25). -/
  pc : Word
  /-- STACK[0..STACK_CAPACITY-1], every entry, those at SP and above too (R28). -/
  stack : List Word
  /-- SP, the count of valid entries (R28). -/
  sp : Nat
  /-- DT (R30). -/
  dt : Byte
  /-- ST (R31). -/
  st : Byte
  /-- DISP (R32). -/
  disp : Display
  /-- KEY[0..15] (R33). -/
  key : Vector Bool 16
  /-- LASTKEY (R34). -/
  lastKey : Nibble
  /-- STATUS (R35). -/
  status : Status
  /-- The parameters of this machine (R36). Not architectural state: nothing writes it (log 1). -/
  config : Config
  /-- How many random bytes have been drawn. The model's own field (log 3). -/
  draws : Nat
  deriving DecidableEq, Repr

/-- How a step can stop the model with a fault. There is no constructor: the machine's two faults are states that
STATUS records and the machine goes on existing in (60_exceptions.md R251, R252), and the spec names no other way to
stop (R253, R86). Safe: no step is cut short (log 8). -/
inductive Fault where
  deriving DecidableEq, Repr

/-- How an instruction can be refused. -/
inductive Refusal where
  /-- An arm of `exec` for an instruction that has no meaning yet would raise it; no arm does. Safe. -/
  | notModelled (mnemonic : String)
  deriving DecidableEq, Repr

/-- The state right after creation with these parameters and no program byte (10_state.md R37;
70_reset_and_hazards.md R280): the font stands in memory as boot content, so nothing is listed. -/
def State.init (c : Config) : State where
  mem := []
  v := Vector.replicate 16 0x00#8
  i := 0x000#16
  pc := pcReset
  stack := List.replicate c.stackCapacity 0x0000#16
  sp := 0
  dt := 0x00#8
  st := 0x00#8
  disp := Vector.replicate 64 (Vector.replicate 32 false)
  key := Vector.replicate 16 false
  lastKey := 0x0#4
  status := .run
  config := c
  draws := 0

/-- The machine right after reset: created with the default parameters (R37). -/
def State.reset : State := State.init defaultConfig

end Sys2Proof.Machine
end

