-- ==== Sys2Proof/Machine/Ops.lean ====
section
/-!
DEFINITION. The named operations over memory, registers, the stack, the display and STATUS that every meaning is
written with (00_scope.md R10), fault entry (60_exceptions.md R251) among them.
-/

namespace Sys2Proof.Machine

/-- How a step ends on this machine. -/
abbrev Result := Host.Outcome State Fault Refusal

/-! ### Memory as a list -/

/-- What a byte that nothing has written reads as: the font at 0x000..0x04F, zero elsewhere (10_state.md R37;
20_memory.md R67; log 6). -/
def Memory.boot (font : Font) (a : Nat) : Byte := if h : a < 80 then font[a] else 0x00#8

/-- The listed byte at an address, if one is listed. -/
def Memory.find (m : Memory) (a : Nat) : Option Byte :=
  match m with
  | [] => none
  | (k, b) :: rest => if k = a then some b else Memory.find rest a

/-- The byte at an address: the listed one, else the boot content. -/
def Memory.read (font : Font) (m : Memory) (a : Nat) : Byte := (Memory.find m a).getD (Memory.boot font a)

/-- The list without its entry at an address. -/
def Memory.erase (m : Memory) (a : Nat) : Memory := m.filter fun c => c.1 != a

/-- The list with an entry put in before the first higher address; it must hold none at that address. -/
def Memory.insert (m : Memory) (a : Nat) (b : Byte) : Memory :=
  match m with
  | [] => [(a, b)]
  | c :: rest => if a < c.1 then (a, b) :: c :: rest else c :: Memory.insert rest a b

/-- Write one byte, keeping the canonical form: writing the boot content unlists the address. -/
def Memory.write (font : Font) (m : Memory) (a : Nat) (b : Byte) : Memory :=
  let cleared := Memory.erase m a
  if b = Memory.boot font a then cleared else Memory.insert cleared a b

/-- The canonical form: addresses strictly rising, all inside MEM (R60), no entry equal to the boot content. -/
abbrev Memory.wf (font : Font) (m : Memory) : Prop :=
  m.Pairwise (fun c d => c.1 < d.1) ∧ ∀ c ∈ m, c.1 < 4096 ∧ c.2 ≠ Memory.boot font c.1

/-! ### The memory port (20_memory.md R61) -/

/-- `MemRead(addr, 1)`: the address is reduced modulo 4096. -/
def State.memRead (s : State) (addr : Nat) : Byte := Memory.read s.config.font s.mem (addr % 4096)

/-- `MemWrite(addr, 1, b)`: the address is reduced modulo 4096. -/
def State.memWrite (s : State) (addr : Nat) (b : Byte) : State :=
  { s with mem := Memory.write s.config.font s.mem (addr % 4096) b }

/-- `Fetch(PC)`: two byte reads, big-endian, the second at trunc16(PC + 1) (R62). -/
def State.fetch (s : State) : Word :=
  wordOfBytes (s.memRead s.pc.toNat) (s.memRead (trunc16 (s.pc.toNat + 1)).toNat)

/-- Bytes stored one after the other from an address. -/
def State.memWriteList (s : State) (addr : Nat) : List Byte → State
  | [] => s
  | b :: rest => (s.memWrite addr b).memWriteList (addr + 1) rest

/-! ### Registers -/

/-- `V[r]` (10_state.md R21). -/
def State.reg (s : State) (r : Reg) : Byte := s.v.get r.toFin

/-- `V[r] <- b`. -/
def State.setReg (s : State) (r : Reg) (b : Byte) : State := { s with v := s.v.set r.toFin b }

/-- VF, the flag register (10_state.md R22). -/
def regF : Reg := 0xF#4

/-- V0, the register BNNN adds (40_control_flow.md R105). -/
def reg0 : Reg := 0x0#4

/-- `I <- n`: every write keeps I in 0..0xFFF (10_state.md R27). -/
def State.setI (s : State) (n : Nat) : State := { s with i := trunc16 (n % 4096) }

/-- `DT <- b` (R30). -/
def State.setDt (s : State) (b : Byte) : State := { s with dt := b }

/-- `ST <- b` (R31). -/
def State.setSt (s : State) (b : Byte) : State := { s with st := b }

/-- `STATUS <- x` (R35). -/
def State.setStatus (s : State) (x : Status) : State := { s with status := x }

/-! ### The program counter (00_scope.md R12) -/

/-- `PC <- target`. -/
def State.jump (s : State) (target : Word) : State := { s with pc := target }

/-- The 16-bit sum PC + n. -/
def State.pcPlus (s : State) (n : Nat) : Word := trunc16 (s.pc.toNat + n)

/-- `PC <- PC+2`. -/
def State.advance (s : State) : State := s.jump (s.pcPlus 2)

/-- `if c: PC <- PC+4 else PC <- PC+2`: a skip passes exactly one word (40_control_flow.md R100). -/
def State.skipIf (s : State) (c : Bool) : State := if c then s.jump (s.pcPlus 4) else s.advance

/-! ### Faults -/

/-- `raise F(pc, w)`, the one fault entry: STATUS takes the record, nothing else is written (60_exceptions.md R251,
R256). -/
def State.raise (s : State) (kind : FaultKind) (w : Word) : State := s.setStatus (.fault kind s.pc w)

/-! ### The call stack (10_state.md R28, R29) -/

/-- `STACK[k]`; an index beyond the list, which no state of the invariant reads, gives 0 (log 5). -/
def State.stackAt (s : State) (k : Nat) : Word := s.stack.getD k 0x0000#16

/-- `Push(v)` past its check, then the jump: `w` is the pushing instruction's word, for the fault record. -/
def State.pushAndJump (s : State) (w v target : Word) : State :=
  if s.sp = s.config.stackCapacity then s.raise .stackOverflow w
  else { s with stack := s.stack.set s.sp v, sp := s.sp + 1 }.jump target

/-- `Pop()` past its check, then the jump to the popped address. -/
def State.popAndJump (s : State) (w : Word) : State :=
  if s.sp = 0 then s.raise .stackUnderflow w
  else { s with sp := s.sp - 1 }.jump (s.stackAt (s.sp - 1))

/-! ### The display (10_state.md R32) -/

/-- `DISP[px][py]`. -/
def State.cell (s : State) (px : Fin 64) (py : Fin 32) : Bool := (s.disp.get px).get py

/-- `DISP[px][py] <- b`. -/
def State.setCell (s : State) (px : Fin 64) (py : Fin 32) (b : Bool) : State :=
  { s with disp := s.disp.set px ((s.disp.get px).set py b) }

/-- Every cell off (42_display.md R171). -/
def State.clearDisplay (s : State) : State :=
  { s with disp := Vector.replicate 64 (Vector.replicate 32 false) }

/-! ### Random bytes -/

/-- `rand8()`: the next free draw (41_register_alu.md R145; log 3). -/
def State.rand8 (s : State) : Byte := Config.freeByte s.draws

/-- The state once that draw has been taken. -/
def State.drawn (s : State) : State := { s with draws := s.draws + 1 }

end Sys2Proof.Machine
end

