-- ==== Sys2Proof/Machine/Flags.lean ====
section
/-!
DEFINITION. Every flag computation (10_state.md R22, R24; 41_register_alu.md R137 to R141): each gives the byte that
goes to VF.
-/

namespace Sys2Proof.Machine

/-- A truth value as the byte 0x00 or 0x01. -/
def flagByte (c : Bool) : Byte := if c then 0x01#8 else 0x00#8

/-- ADD: 1 if the unsigned sum exceeds 255 (R137). -/
def carryFlag (a b : Byte) : Byte := flagByte (decide (a.toNat + b.toNat > 255))

/-- SUB and SUBN: 1 if the minuend is strictly greater than the subtrahend (R138, R140). -/
def greaterFlag (minuend subtrahend : Byte) : Byte := flagByte (decide (minuend.toNat > subtrahend.toNat))

/-- SHR: the low bit (R139). -/
def lowBitFlag (a : Byte) : Byte := a &&& 0x01#8

/-- SHL: bit 7 as 0x00 or 0x80 (R141), or as 0 or 1 where the optional parameter SHL_FLAG_NORMALISED is set (D14;
log 16). -/
def highBitFlag (c : Config) (a : Byte) : Byte := if c.shlFlagNormalised then a >>> 7 else a &&& 0x80#8

/-- DRW: 1 on a collision (42_display.md R173). -/
def collisionFlag : Byte := 0x01#8

/-- `V[F] <- flag`. -/
def State.setFlag (s : State) (flag : Byte) : State := s.setReg regF flag

end Sys2Proof.Machine
end

