-- ==== Sys2Proof/Machine/Operands.lean ====
section
/-!
DEFINITION. Every operand form: how an immediate, a register or I becomes a target, an address, a key, a glyph or a
pixel (30_encoding.md R82; 40_control_flow.md R100, R105; 42_display.md R170, R172; 43_keypad_timers.md R190;
44_index_memory.md).
-/

namespace Sys2Proof.Machine

/-- A 12-bit address zero-extended to 16 bits (R82). -/
def zextAddr (nnn : Addr12) : Word := nnn.setWidth 16

/-- BNNN's target: `trunc16(zext_16(nnn) + zext_16(V[0]))` (R105). -/
def jumpV0Target (nnn : Addr12) (v0 : Byte) : Word := trunc16 (nnn.toNat + v0.toNat)

/-- The address I + k, before the port reduces it (20_memory.md R61, R64). -/
def State.indexed (s : State) (k : Nat) : Nat := s.i.toNat + k

/-- `pressed(v)`: the key's flag, and 0 for a value that names no key (43_keypad_timers.md R190). -/
def State.pressed (s : State) (b : Byte) : Bool := if h : b.toNat < 16 then s.key[b.toNat] else false

/-- FX29's glyph address V[x] · 5 (44_index_memory.md R222). -/
def glyphAddress (b : Byte) : Nat := b.toNat * 5

/-- FX33's digits: hundreds, tens, ones (44_index_memory.md R223). -/
def bcdDigits (b : Byte) : List Byte :=
  [trunc8 (b.toNat / 100), trunc8 (b.toNat / 10 % 10), trunc8 (b.toNat % 10)]

/-- Whether column c of a sprite byte is set: bit 7 is the leftmost (42_display.md R172). -/
def spriteBit (b : Byte) (c : Nat) : Bool := b.getLsbD (7 - c)

/-- The display column of sprite column c (42_display.md R170). -/
def pixelColumn (x0 : Byte) (c : Nat) : Fin 64 := ⟨(x0.toNat + c) % 64, Nat.mod_lt _ (by decide)⟩

/-- The display row of sprite row r (42_display.md R170). -/
def pixelRow (y0 : Byte) (r : Nat) : Fin 32 := ⟨(y0.toNat + r) % 32, Nat.mod_lt _ (by decide)⟩

/-- The register with number k, for the loops of FX55 and FX65, where k ≤ 15. -/
def regNumber (k : Nat) : Reg := BitVec.ofNat 4 k

/-- `trunc8(a + b)` (41_register_alu.md R132, R137). -/
def add8 (a b : Byte) : Byte := trunc8 (a.toNat + b.toNat)

/-- `trunc8(a + 256 - b)` (41_register_alu.md R138, R140). -/
def sub8 (a b : Byte) : Byte := trunc8 (a.toNat + 256 - b.toNat)

/-- `a >> 1`, a zero shifted in (41_register_alu.md R139). -/
def shr8 (a : Byte) : Byte := trunc8 (a.toNat / 2)

/-- `trunc8(a << 1)` (41_register_alu.md R141). -/
def shl8 (a : Byte) : Byte := trunc8 (a.toNat * 2)

end Sys2Proof.Machine
end

