-- ==== Sys2Proof/Machine/Alu.lean ====
section
/-!
DEFINITION. Register loads, the ALU and the random byte (41_register_alu.md). The flag instructions have two
statements, the flag first, the second reading the registers as the first left them (R130); ADD's sum is formed
before the flag is written (R137).
-/

namespace Sys2Proof.Machine

/-- `V[x] <- b; PC <- PC+2`, the end of every instruction of this file. -/
def State.writeAndAdvance (s : State) (x : Reg) (b : Byte) : State := (s.setReg x b).advance

/-- 6XNN (R131). -/
def execLdImm (x : Reg) (nn : Byte) (s : State) : Result := .next (s.writeAndAdvance x nn)

/-- 7XNN, no flag (R132). -/
def execAddImm (x : Reg) (nn : Byte) (s : State) : Result := .next (s.writeAndAdvance x (add8 (s.reg x) nn))

/-- 8XY0 (R133). -/
def execLdReg (x y : Reg) (s : State) : Result := .next (s.writeAndAdvance x (s.reg y))

/-- 8XY1 (R134). -/
def execOrReg (x y : Reg) (s : State) : Result := .next (s.writeAndAdvance x (s.reg x ||| s.reg y))

/-- 8XY2 (R135). -/
def execAndReg (x y : Reg) (s : State) : Result := .next (s.writeAndAdvance x (s.reg x &&& s.reg y))

/-- 8XY3 (R136). -/
def execXorReg (x y : Reg) (s : State) : Result := .next (s.writeAndAdvance x (s.reg x ^^^ s.reg y))

/-- 8XY4 (R137, R130). -/
def execAddReg (x y : Reg) (s : State) : Result :=
  let a := s.reg x
  let b := s.reg y
  .next ((s.setFlag (carryFlag a b)).writeAndAdvance x (add8 a b))

/-- 8XY5 (R138, R130). -/
def execSub (x y : Reg) (s : State) : Result :=
  let t := s.setFlag (greaterFlag (s.reg x) (s.reg y))
  .next (t.writeAndAdvance x (sub8 (t.reg x) (t.reg y)))

/-- 8XY6, V[y] not read (R139, R130). -/
def execShr (x _y : Reg) (s : State) : Result :=
  let t := s.setFlag (lowBitFlag (s.reg x))
  .next (t.writeAndAdvance x (shr8 (t.reg x)))

/-- 8XY7 (R140, R130). -/
def execSubn (x y : Reg) (s : State) : Result :=
  let t := s.setFlag (greaterFlag (s.reg y) (s.reg x))
  .next (t.writeAndAdvance x (sub8 (t.reg y) (t.reg x)))

/-- 8XYE, V[y] not read (R141, R130). -/
def execShl (x _y : Reg) (s : State) : Result :=
  let t := s.setFlag (highBitFlag s.config (s.reg x))
  .next (t.writeAndAdvance x (shl8 (t.reg x)))

/-- CXNN: one fresh draw, masked (R145). -/
def execRnd (x : Reg) (nn : Byte) (s : State) : Result := .next (s.drawn.writeAndAdvance x (s.rand8 &&& nn))

end Sys2Proof.Machine
end

