-- ==== Sys2Proof/Machine/Control.lean ====
section
/-!
DEFINITION. Control flow (40_control_flow.md): SYS, RET, JP, CALL, JP V0 and the register skips.
-/

namespace Sys2Proof.Machine

/-- 0NNN, a no-op that advances (R101). -/
def execSys (_nnn : Addr12) (s : State) : Result := .next s.advance

/-- 00EE (R102): the word of its fault record is its own. -/
def execRet (s : State) : Result := .next (s.popAndJump (encode .ret))

/-- 1NNN (R103). -/
def execJp (nnn : Addr12) (s : State) : Result := .next (s.jump (zextAddr nnn))

/-- 2NNN (R104): pushes PC+2; the word of its fault record is its own. -/
def execCall (nnn : Addr12) (s : State) : Result :=
  .next (s.pushAndJump (encode (.call nnn)) (s.pcPlus 2) (zextAddr nnn))

/-- BNNN (R105). -/
def execJpV0 (nnn : Addr12) (s : State) : Result := .next (s.jump (jumpV0Target nnn (s.reg reg0)))

/-- 3XNN (R106). -/
def execSeImm (x : Reg) (nn : Byte) (s : State) : Result := .next (s.skipIf (s.reg x == nn))

/-- 4XNN (R107). -/
def execSneImm (x : Reg) (nn : Byte) (s : State) : Result := .next (s.skipIf (s.reg x != nn))

/-- 5XY0 (R108). -/
def execSeReg (x y : Reg) (s : State) : Result := .next (s.skipIf (s.reg x == s.reg y))

/-- 9XY0 (R109). -/
def execSneReg (x y : Reg) (s : State) : Result := .next (s.skipIf (s.reg x != s.reg y))

/-- A word that selects no instruction: PC+2 and nothing else (30_encoding.md R85). -/
def execUnrecognised (_w : Word) (s : State) : Result := .next s.advance

end Sys2Proof.Machine
end

