-- ==== Sys2Proof/Machine/Draw.lean ====
section
/-!
DEFINITION. The display (42_display.md): CLS and DRW.
-/

namespace Sys2Proof.Machine

/-- 00E0 (R171). -/
def execCls (s : State) : Result := .next s.clearDisplay.advance

/-- One set sprite bit: a collision if the cell is on, then the XOR (R173). -/
def State.xorCell (s : State) (px : Fin 64) (py : Fin 32) : State :=
  (if s.cell px py then s.setFlag collisionFlag else s).setCell px py (!s.cell px py)

/-- Column c of row r, whose sprite byte is b (R173's inner loop body). -/
def State.drawColumn (x0 y0 : Byte) (r : Nat) (b : Byte) (s : State) (c : Nat) : State :=
  if spriteBit b c then s.xorCell (pixelColumn x0 c) (pixelRow y0 r) else s

/-- Row r: its byte is read at I + r (R173's outer loop body). -/
def State.drawRow (x0 y0 : Byte) (s : State) (r : Nat) : State :=
  (List.range 8).foldl (State.drawColumn x0 y0 r (s.memRead (s.indexed r))) s

/-- The n rows, top to bottom (R173's outer loop). -/
def State.drawRows (x0 y0 : Byte) (n : Nat) (s : State) : State := (List.range n).foldl (State.drawRow x0 y0) s

/-- DXYN: both coordinates are latched before VF is cleared (R173). -/
def execDrw (x y : Reg) (n : Nibble) (s : State) : Result :=
  .next (State.drawRows (s.reg x) (s.reg y) n.toNat (s.setFlag 0x00#8)).advance

end Sys2Proof.Machine
end

