-- ==== Sys2Proof/Machine/Index.lean ====
section
/-!
DEFINITION. The index register and memory transfer (44_index_memory.md). FX33, FX55 and FX65 leave I as it is (D22).
-/

namespace Sys2Proof.Machine

/-- ANNN (R220). -/
def execLdI (nnn : Addr12) (s : State) : Result := .next (s.setI nnn.toNat).advance

/-- FX1E: 12-bit wrap, no VF (R221). -/
def execAddIVx (x : Reg) (s : State) : Result := .next (s.setI (s.indexed (s.reg x).toNat)).advance

/-- FX29: the whole byte times 5 (R222). -/
def execLdFVx (x : Reg) (s : State) : Result := .next (s.setI (glyphAddress (s.reg x))).advance

/-- FX33: three digits at I, I+1, I+2 (R223). -/
def execLdBVx (x : Reg) (s : State) : Result := .next (s.memWriteList (s.indexed 0) (bcdDigits (s.reg x))).advance

/-- `MemWrite(I + k, 1, V[k])`, FX55's loop body (R224). -/
def State.storeReg (s : State) (k : Nat) : State := s.memWrite (s.indexed k) (s.reg (regNumber k))

/-- `V[k] <- MemRead(I + k, 1)`, FX65's loop body (R225). -/
def State.loadReg (s : State) (k : Nat) : State := s.setReg (regNumber k) (s.memRead (s.indexed k))

/-- FX55's loop over the first n registers, ascending. -/
def State.storeRegs (n : Nat) (s : State) : State := (List.range n).foldl State.storeReg s

/-- FX65's loop over the first n registers, ascending. -/
def State.loadRegs (n : Nat) (s : State) : State := (List.range n).foldl State.loadReg s

/-- FX55: k = 0 .. x inclusive (R224). -/
def execLdMemVx (x : Reg) (s : State) : Result := .next (State.storeRegs (x.toNat + 1) s).advance

/-- FX65: k = 0 .. x inclusive (R225). -/
def execLdVxMem (x : Reg) (s : State) : Result := .next (State.loadRegs (x.toNat + 1) s).advance

end Sys2Proof.Machine
end

