-- ==== Sys2Proof/Machine/Keypad.lean ====
section
/-!
DEFINITION. Keypad and timers (43_keypad_timers.md): the key skips, the timer copies and the key wait.
-/

namespace Sys2Proof.Machine

/-- EX9E (R191). -/
def execSkp (x : Reg) (s : State) : Result := .next (s.skipIf (s.pressed (s.reg x)))

/-- EXA1 (R192). -/
def execSknp (x : Reg) (s : State) : Result := .next (s.skipIf (!s.pressed (s.reg x)))

/-- FX07 (R193). -/
def execLdVxDt (x : Reg) (s : State) : Result := .next (s.setReg x s.dt).advance

/-- FX0A, the start of the wait: PC stays at the instruction (R194). KeyPress completes it (R195). -/
def execLdVxK (x : Reg) (s : State) : Result := .next (s.setStatus (.waitKey x))

/-- FX15 (R197). -/
def execLdDtVx (x : Reg) (s : State) : Result := .next (s.setDt (s.reg x)).advance

/-- FX18 (R198). -/
def execLdStVx (x : Reg) (s : State) : Result := .next (s.setSt (s.reg x)).advance

end Sys2Proof.Machine
end

