-- ==== Sys2Proof/Machine/Fetch.lean ====
section
/-!
DEFINITION. What Step.lean calls: the three cases of the step cycle (70_reset_and_hazards.md R284) and placing a word
where the next fetch reads it.
-/

namespace Sys2Proof.Machine

/-- `w <- Fetch(PC)`, then `decode(w)` by its rule (R284). -/
def State.runOne (s : State) : Result := exec (decode s.fetch) s

/-- The step cycle (R284): RUN runs one instruction; WAIT_KEY and FAULT change nothing (43_keypad_timers.md R196;
60_exceptions.md R252). -/
def State.stepCycle (s : State) : Result :=
  match s.status with
  | .run => s.runOne
  | .waitKey _ => .next s
  | .fault _ _ _ => .next s

/-- The word at PC, high byte at the lower address (20_memory.md R62), with STATUS at RUN, which the fetch needs
(R284). -/
def State.placeWord (s : State) (w : Word) : State :=
  ((s.memWrite s.pc.toNat (highByte w)).memWrite (trunc16 (s.pc.toNat + 1)).toNat (lowByte w)).setStatus .run

end Sys2Proof.Machine
end

