-- ==== Sys2Proof/Machine/Step.lean ====
section
/-!
DEFINITION. One step, and the host's way to place an instruction where the next step fetches it.
-/

namespace Sys2Proof.Machine

/-- One `Step` (70_reset_and_hazards.md R284). -/
def step : State → Host.Outcome State Fault Refusal := fun s => s.stepCycle

/-- The state with the opcode table's word placed where the next step fetches (log 19). -/
def State.withFetchWord (s : State) (nbits w : Nat) : State := s.placeWord (tableWord nbits w)

end Sys2Proof.Machine
end

