-- ==== Sys2Proof/Machine/HostActions.lean ====
section
/-!
DEFINITION. What the host can do to the machine between steps (60_exceptions.md R260): create it, set the keys, press
a key, tick the timers, read it out; and a run as a sequence of actions (70_reset_and_hazards.md R285).
-/

namespace Sys2Proof.Machine

/-- PROGRAM_MAX (00_scope.md R6). -/
def programMax : Nat := 3584

/-- `Create(program, FONT)` (70_reset_and_hazards.md R280): the font is boot content, then the program is stored from
0x200. A program over 3584 bytes builds nothing (R281). -/
def create (c : Config) (program : List Byte) : Option State :=
  if program.length ≤ programMax then some ((State.init c).memWriteList pcReset.toNat program) else none

/-- `SetKeys(m)` (43_keypad_timers.md R199). -/
def State.setKeys (s : State) (m : Word) : State := { s with key := Vector.ofFn fun k => m.getLsbD k.val }

/-- `KeyPress(k)` (43_keypad_timers.md R195). -/
def State.keyPress (s : State) (k : Nibble) : State :=
  match s.status with
  | .waitKey x => (({ s with lastKey := k }.setReg x (k.setWidth 8)).advance).setStatus .run
  | .run => s
  | .fault _ _ _ => s

/-- One tick of one timer: it stops at 0 (43_keypad_timers.md R200). -/
def tickDown (b : Byte) : Byte := if b.toNat > 0 then trunc8 (b.toNat - 1) else b

/-- STATUS is FAULT(…). -/
def Status.isFault : Status → Bool
  | .fault _ _ _ => true
  | .run => false
  | .waitKey _ => false

/-- `TimerTick` (43_keypad_timers.md R200). -/
def State.timerTick (s : State) : State :=
  if s.config.timerTickEnabled && !s.status.isFault then (s.setDt (tickDown s.dt)).setSt (tickDown s.st) else s

/-- The numeric code of a fault (60_exceptions.md R250). -/
def FaultKind.code : FaultKind → Nat
  | .stackOverflow => 1
  | .stackUnderflow => 2

/-- Display read-out: the grid the DisplaySink gets (R260). -/
def State.displayReadOut (s : State) : Display := s.disp

/-- Status read-out, the fault record included (R260). -/
def State.statusReadOut (s : State) : Status := s.status

/-- An action on an existing machine (R260, R285); the read-outs change nothing and are no action. -/
inductive HostAction where
  /-- `Step`. -/
  | step
  /-- `SetKeys(m)`. -/
  | setKeys (m : Word)
  /-- `KeyPress(k)`. -/
  | keyPress (k : Nibble)
  /-- `TimerTick`. -/
  | timerTick
  deriving DecidableEq, Repr

/-- One action. -/
def act (s : State) : HostAction → Result
  | .step => step s
  | .setKeys m => .next (s.setKeys m)
  | .keyPress k => .next (s.keyPress k)
  | .timerTick => .next s.timerTick

/-- A sequence of actions (R285), stopping at the first that does not give a next state. -/
def runActions (s : State) : List HostAction → Result
  | [] => .next s
  | a :: rest =>
    match act s a with
    | .next t => runActions t rest
    | .fault r => .fault r
    | .refused r => .refused r

end Sys2Proof.Machine
end

