-- ==== Sys2Proof/Safety.lean ====
section
/-!
DEFINITION. The terms statements are made in: the invariant of the machine, what an action leaves unchanged, the
states a host can reach, and the three ends of a run (70_reset_and_hazards.md R286).
-/

namespace Sys2Proof.Machine

/-- The invariant: I stays in 0..0xFFF (10_state.md R27), SP in 0..STACK_CAPACITY and the stack store has that many
entries (R28), the capacity is a natural ≥ 1 (D5), memory is in its canonical form (20_memory.md R60; log 6). -/
structure State.Inv (s : State) : Prop where
  index : s.i.toNat < 4096
  pointer : s.sp ≤ s.config.stackCapacity
  store : s.stack.length = s.config.stackCapacity
  capacity : 1 ≤ s.config.stackCapacity
  memory : Memory.wf s.config.font s.mem

/-- The parts of the state other than the V registers; the stack is its store and its pointer. -/
inductive Part where
  | mem | i | pc | stack | dt | st | disp | key | lastKey | status | config | draws
  deriving DecidableEq, Repr

/-- A part is the same in two states; memory byte by byte, through the port. -/
def Part.Same (s t : State) : Part → Prop
  | .mem => ∀ a : Nat, t.memRead a = s.memRead a
  | .i => t.i = s.i
  | .pc => t.pc = s.pc
  | .stack => t.stack = s.stack ∧ t.sp = s.sp
  | .dt => t.dt = s.dt
  | .st => t.st = s.st
  | .disp => t.disp = s.disp
  | .key => t.key = s.key
  | .lastKey => t.lastKey = s.lastKey
  | .status => t.status = s.status
  | .config => t.config = s.config
  | .draws => t.draws = s.draws

/-- The frame: every part outside `parts` and every register outside `regs` is the same. -/
def OnlyChanges (parts : List Part) (regs : List Reg) (s t : State) : Prop :=
  (∀ p, p ∉ parts → p.Same s t) ∧ ∀ r, r ∉ regs → t.reg r = s.reg r

/-- Every byte of memory outside the listed addresses (each reduced as the port reduces it, 20_memory.md R61) is the
same. -/
def OnlyStores (addrs : List Nat) (s t : State) : Prop :=
  ∀ a : Nat, a % 4096 ∉ addrs.map (· % 4096) → t.memRead a = s.memRead a

/-- A set bit of the n-row sprite at I, drawn from (x0, y0), lands on this cell (42_display.md R170, R172). -/
def SpriteSets (s : State) (x0 y0 : Byte) (n : Nibble) (px : Fin 64) (py : Fin 32) : Prop :=
  ∃ r c : Nat, r < n.toNat ∧ c < 8 ∧ px.val = (x0.toNat + c) % 64 ∧ py.val = (y0.toNat + r) % 32 ∧
    (s.memRead (s.i.toNat + r)).getLsbD (7 - c) = true

/-- Two states that differ at most in stack entries at index SP and above (10_state.md R28). -/
def SameButFreeStack (s t : State) : Prop :=
  t = { s with stack := t.stack } ∧ t.stack.length = s.stack.length ∧ ∀ k, k < s.sp → t.stackAt k = s.stackAt k

/-- A run is idle: RUN at a 1NNN whose NNN is its own address (R286). -/
def State.Idle (s : State) : Prop := s.status = .run ∧ ∃ nnn, decode s.fetch = .jp nnn ∧ s.pc.toNat = nnn.toNat

/-- A run is waiting (R286). -/
def State.Waiting (s : State) : Prop := ∃ x, s.status = .waitKey x

/-- A run is faulted (R286). -/
def State.Faulted (s : State) : Prop := ∃ kind pc word, s.status = .fault kind pc word

/-- The states a host can bring a machine to: created with a capacity of at least 1, then any actions (R280, R285). -/
inductive Reachable : State → Prop where
  | created (c : Config) (program : List Byte) (s : State) :
      1 ≤ c.stackCapacity → create c program = some s → Reachable s
  | acted (s t : State) (a : HostAction) : Reachable s → act s a = .next t → Reachable t

end Sys2Proof.Machine
end

