-- ==== Sys2Proof/Certificates/Slice0/Obligations.lean ====
section
/-!
DEFINITION. The statements for the provers. Each docstring names the rules of spec/ it formalises, or the spec's own
decision (D<n>) or the model's log entry it rests on. The frame `OnlyChanges parts regs s t` (Safety.lean) says that
every part of the state outside `parts`, memory byte by byte, and every register outside `regs` is the same.
-/

open Sys2Proof Sys2Proof.Machine

/-! ### Encoding -/

/-- Decoding the word of a well-formed instruction gives it back, every operand at every value (30_encoding.md
sections 1 and 2; the map rests on D8 to D12). -/
def Obligations.DecodeOfEncode : Prop := ∀ i : Instr, i.WellFormed → decode (encode i) = i

/-- Every word has one meaning: what it decodes to is well-formed and encodes to it (30_encoding.md section 2; the map
rests on D8 to D12). -/
def Obligations.EncodeOfDecode : Prop := ∀ w : Word, (decode w).WellFormed ∧ encode (decode w) = w

/-- Exactly the words of the table of 30_encoding.md section 3 (R85) select no instruction (classes 5 and 9 by D11, E
and F by D12), and they advance PC by 2 and change nothing else. -/
def Obligations.UnrecognisedWordsAreNoOps : Prop :=
  (∀ w : Word, decode w = .unrecognised w ↔
    (fieldC w = 0x8#4 ∧ fieldN w ∈ [0x8#4, 0x9#4, 0xA#4, 0xB#4, 0xC#4, 0xD#4, 0xF#4]) ∨
    (fieldC w = 0xE#4 ∧ fieldNN w ∉ [0x9E#8, 0xA1#8]) ∨
    (fieldC w = 0xF#4 ∧
      fieldNN w ∉ [0x07#8, 0x0A#8, 0x15#8, 0x18#8, 0x1E#8, 0x29#8, 0x33#8, 0x55#8, 0x65#8]) ∨
    (fieldC w = 0x5#4 ∧ fieldN w ≠ 0x0#4) ∨
    (fieldC w = 0x9#4 ∧ fieldN w ≠ 0x0#4)) ∧
  ∀ (w : Word) (s : State), ∃ t, exec (.unrecognised w) s = .next t ∧
    t.pc = s.pc + 2#16 ∧ OnlyChanges [.pc] [] s t

/-- The worked encodings of R90, from their bytes in memory order, and a word of every other family written out from
its row of spec/opcode_table.json (the byte order is D1, the no-op rows D10 and D11). -/
def Obligations.WorkedEncodingsDecode : Prop :=
  decodeBytes [0x00#8, 0xE0#8] = .ok (.cls, []) ∧
  decodeBytes [0x12#8, 0x00#8] = .ok (.jp 0x200#12, []) ∧
  decodeBytes [0x60#8, 0x05#8] = .ok (.ldImm 0x0#4 0x05#8, []) ∧
  decodeBytes [0xF0#8, 0x29#8] = .ok (.ldFVx 0x0#4, []) ∧
  decodeBytes [0xD0#8, 0x05#8] = .ok (.drw 0x0#4 0x0#4 0x5#4, []) ∧
  decodeBytes [0x8A#8, 0xB4#8] = .ok (.addReg 0xA#4 0xB#4, []) ∧
  decodeBytes [0x8A#8, 0xB8#8] = .ok (.unrecognised 0x8AB8#16, []) ∧
  decodeBytes [0x51#8, 0x21#8] = .ok (.unrecognised 0x5121#16, []) ∧
  decodeBytes [0x01#8, 0x23#8] = .ok (.sys 0x123#12, []) ∧
  decodeBytes [0x00#8, 0xEF#8] = .ok (.sys 0x0EF#12, []) ∧
  decodeBytes [0xE3#8, 0x9E#8] = .ok (.skp 0x3#4, []) ∧
  decodeBytes [0xE3#8, 0x9F#8] = .ok (.unrecognised 0xE39F#16, []) ∧
  decodeBytes [0xF3#8, 0x55#8] = .ok (.ldMemVx 0x3#4, []) ∧
  decodeBytes [0xF3#8, 0x05#8] = .ok (.unrecognised 0xF305#16, []) ∧
  decodeBytes [0x23#8, 0x00#8] = .ok (.call 0x300#12, []) ∧
  decodeBytes [0xC3#8, 0x0F#8] = .ok (.rnd 0x3#4 0x0F#8, []) ∧
  decodeBytes [0xF3#8, 0x0A#8] = .ok (.ldVxK 0x3#4, [])

/-! ### The step -/

/-- The step cycle (70_reset_and_hazards.md section 2; the byte order is D1, the wrap D2, the wait D17, the end of a
faulted run D20): RUN executes the word whose two bytes are read at PC and trunc16(PC + 1); WAIT_KEY and FAULT have no
effect. The step adds nothing around the instruction. -/
def Obligations.StepRunsDecodedInstruction : Prop :=
  ∀ s : State,
    (s.status = .run →
      step s = exec (decode s.fetch) s ∧
      ∀ i, decodeBytes [s.memRead s.pc.toNat, s.memRead (s.pc + 1#16).toNat] = .ok (i, []) →
        i.WellFormed ∧ step s = exec i s) ∧
    (∀ x, s.status = .waitKey x → step s = .next s) ∧
    ∀ kind pc w, s.status = .fault kind pc w → step s = .next s

/-- The fetched word has the byte at PC as its high byte and the byte at trunc16(PC + 1) as its low byte, every
address reduced modulo 4096 (20_memory.md sections 1 and 2; the byte order is D1, the wrap D2). -/
def Obligations.FetchIsBigEndian : Prop :=
  ∀ s : State,
    s.fetch.toNat = 256 * (s.memRead (s.pc.toNat % 4096)).toNat +
      (s.memRead ((s.pc.toNat + 1) % 65536 % 4096)).toNat

/-- Every instruction gives a next state in every state, and so does every step and every sequence of host actions:
nothing stops the machine (30_encoding.md section 3; the fault states are next states, log 8). -/
def Obligations.EveryActionCompletes : Prop :=
  (∀ (i : Instr) (s : State), ∃ t, exec i s = .next t) ∧
  (∀ s : State, ∃ t, step s = .next t) ∧
  ∀ (actions : List HostAction) (s : State), ∃ t, runActions s actions = .next t

/-! ### The invariant -/

/-- Every step keeps the invariant: I below 4096 (D4), SP within the capacity, the stack store whole, memory canonical
(10_state.md sections 4 and 5). -/
def Obligations.StepKeepsInvariant : Prop := ∀ s t : State, s.Inv → step s = .next t → t.Inv

/-- The reset state meets the invariant. -/
def Obligations.ResetMeetsInvariant : Prop := State.reset.Inv

/-- Every state a host can reach, with any parameters, any program and any actions, meets the invariant
(70_reset_and_hazards.md sections 1 and 2). -/
def Obligations.ReachableStatesMeetInvariant : Prop := ∀ s : State, Reachable s → s.Inv

/-- In the canonical form, memories that read the same are the same data (log 6). -/
def Obligations.CanonicalMemoryIsUnique : Prop :=
  ∀ (font : Font) (m k : Memory), Memory.wf font m → Memory.wf font k →
    (∀ a, a < 4096 → Memory.read font m a = Memory.read font k a) → m = k

/-! ### Whole-machine rules -/

/-- Who writes what (10_state.md section 11): a part that changes was changed by one of its writers; no instruction
writes KEY or LASTKEY. Two clauses are the model's choice: the draw count is its own field (log 3, for R145's draw), and
the parameters, R36's arguments, are held in the state (log 1). -/
def Obligations.WritersAreListed : Prop :=
  ∀ (i : Instr) (s t : State), exec i s = .next t →
    (¬ Part.Same s t .mem → (∃ x, i = .ldBVx x) ∨ ∃ x, i = .ldMemVx x) ∧
    (t.i ≠ s.i → (∃ nnn, i = .ldI nnn) ∨ (∃ x, i = .addIVx x) ∨ ∃ x, i = .ldFVx x) ∧
    (¬ Part.Same s t .stack → i = .ret ∨ ∃ nnn, i = .call nnn) ∧
    (t.dt ≠ s.dt → ∃ x, i = .ldDtVx x) ∧
    (t.st ≠ s.st → ∃ x, i = .ldStVx x) ∧
    (t.disp ≠ s.disp → i = .cls ∨ ∃ x y n, i = .drw x y n) ∧
    (t.status ≠ s.status → i = .ret ∨ (∃ nnn, i = .call nnn) ∨ ∃ x, i = .ldVxK x) ∧
    (t.draws ≠ s.draws → ∃ x nn, i = .rnd x nn) ∧
    t.key = s.key ∧ t.lastKey = s.lastKey ∧ t.config = s.config

/-- Who writes a V register (10_state.md sections 2 and 11): VF is written as a flag by 8XY4 to 8XY7, 8XYE and DXYN
only; every other register write is of the instruction's destination. -/
def Obligations.RegisterWritersAreListed : Prop :=
  ∀ (i : Instr) (s t : State) (r : Reg), exec i s = .next t → t.reg r ≠ s.reg r →
    (r = 0xF#4 ∧
      ((∃ x y, i = .addReg x y) ∨ (∃ x y, i = .sub x y) ∨ (∃ x y, i = .shr x y) ∨ (∃ x y, i = .subn x y) ∨
        (∃ x y, i = .shl x y) ∨ ∃ x y n, i = .drw x y n)) ∨
    (∃ nn, i = .ldImm r nn ∨ i = .addImm r nn ∨ i = .rnd r nn) ∨
    (∃ y, i = .ldReg r y ∨ i = .orReg r y ∨ i = .andReg r y ∨ i = .xorReg r y ∨ i = .addReg r y ∨ i = .sub r y ∨
      i = .shr r y ∨ i = .subn r y ∨ i = .shl r y) ∨
    i = .ldVxDt r ∨ ∃ x, i = .ldVxMem x ∧ r.toNat ≤ x.toNat

/-- PC (10_state.md section 3): PC+2, but for the four instructions that set a target (or fault), the six skips (PC+2 or
PC+4) and FX0A, which holds PC. -/
def Obligations.PcMovesByTwo : Prop :=
  ∀ (i : Instr) (s t : State), exec i s = .next t →
    t.pc = s.pc + 2#16 ∨
    (t.pc = s.pc + 4#16 ∧
      ((∃ x nn, i = .seImm x nn) ∨ (∃ x nn, i = .sneImm x nn) ∨ (∃ x y, i = .seReg x y) ∨ (∃ x y, i = .sneReg x y) ∨
        (∃ x, i = .skp x) ∨ ∃ x, i = .sknp x)) ∨
    (t.pc = s.pc ∧ ∃ x, i = .ldVxK x) ∨
    i = .ret ∨ ∃ nnn, i = .jp nnn ∨ i = .call nnn ∨ i = .jpV0 nnn

/-- The two faults and no other (60_exceptions.md sections 1 and 3): an instruction leads into FAULT exactly when it is
CALL on a full stack or RET on an empty one; the record holds its PC and word, and nothing else changes. -/
def Obligations.OnlyStackFaults : Prop :=
  ∀ (i : Instr) (s t : State), s.status = .run → exec i s = .next t →
    (∀ kind pc w, t.status = .fault kind pc w ↔
      (i = .ret ∧ s.sp = 0 ∧ kind = .stackUnderflow ∧ pc = s.pc ∧ w = 0x00EE#16) ∨
      ∃ nnn : Addr12, i = .call nnn ∧ s.sp = s.config.stackCapacity ∧ kind = .stackOverflow ∧ pc = s.pc ∧
        w = 0x2#4 ++ nnn) ∧
    (t.Faulted → OnlyChanges [.status] [] s t)

/-- Who reads what (10_state.md section 11): no instruction reads ST or LASTKEY, only FX07 reads DT, and only EX9E and
EXA1 read KEY, so changing the one changes nothing else in the outcome. -/
def Obligations.TimerAndKeyReadersAreListed : Prop :=
  ∀ (i : Instr) (s t : State), exec i s = .next t →
    (∀ b, ∃ b', exec i { s with st := b } = .next { t with st := b' }) ∧
    (∀ k, exec i { s with lastKey := k } = .next { t with lastKey := k }) ∧
    ((∀ x, i ≠ .ldVxDt x) → ∀ b, ∃ b', exec i { s with dt := b } = .next { t with dt := b' }) ∧
    ((∀ x, i ≠ .skp x ∧ i ≠ .sknp x) → ∀ m, exec i { s with key := m } = .next { t with key := m })

/-- Stack entries at SP and above are not observable by any instruction (10_state.md section 5): states that differ
only there stay so. -/
def Obligations.FreeStackEntriesAreInvisible : Prop :=
  ∀ (i : Instr) (s s' t : State), SameButFreeStack s s' → exec i s = .next t →
    ∃ t', exec i s' = .next t' ∧ SameButFreeStack t t'

/-! ### Control flow -/

/-- 0NNN (40_control_flow.md, SYS; the no-op is D10): every class-0 word but the two literals, PC+2 and nothing else. -/
def Obligations.SysIsNoOp : Prop :=
  (∀ nnn : Addr12, nnn ≠ 0x0E0#12 → nnn ≠ 0x0EE#12 → decode (0x0#4 ++ nnn) = .sys nnn) ∧
  ∀ (nnn : Addr12) (s : State), ∃ t, exec (.sys nnn) s = .next t ∧
    t.pc = s.pc + 2#16 ∧ OnlyChanges [.pc] [] s t

/-- R102: RET pops and resumes at the popped address itself; on an empty stack it faults and writes STATUS alone. -/
def Obligations.ReturnPopsOrFaults : Prop :=
  decode 0x00EE#16 = .ret ∧
  ∀ s : State,
    (s.sp = 0 → ∃ t, exec .ret s = .next t ∧
      t.status = .fault .stackUnderflow s.pc 0x00EE#16 ∧ OnlyChanges [.status] [] s t) ∧
    (s.sp ≠ 0 → ∃ t, exec .ret s = .next t ∧
      t.sp = s.sp - 1 ∧ t.pc = s.stackAt t.sp ∧ t.stack = s.stack ∧ OnlyChanges [.pc, .stack] [] s t)

/-- R103: JP sets PC to the zero-extended target; a jump to its own address changes nothing. -/
def Obligations.JumpSetsPc : Prop :=
  ∀ nnn : Addr12,
    decode (0x1#4 ++ nnn) = .jp nnn ∧
    ∀ s : State, ∃ t, exec (.jp nnn) s = .next t ∧
      t.pc.toNat = nnn.toNat ∧ OnlyChanges [.pc] [] s t ∧ (s.pc.toNat = nnn.toNat → t = s)

/-- CALL (40_control_flow.md, CALL): it pushes the 16-bit sum PC+2 and jumps; on a full stack it faults and writes
STATUS alone. -/
def Obligations.CallPushesOrFaults : Prop :=
  ∀ nnn : Addr12,
    decode (0x2#4 ++ nnn) = .call nnn ∧
    ∀ s : State,
      (s.sp = s.config.stackCapacity → ∃ t, exec (.call nnn) s = .next t ∧
        t.status = .fault .stackOverflow s.pc (0x2#4 ++ nnn) ∧ OnlyChanges [.status] [] s t) ∧
      (s.sp ≠ s.config.stackCapacity → ∃ t, exec (.call nnn) s = .next t ∧
        t.sp = s.sp + 1 ∧ t.pc.toNat = nnn.toNat ∧
        (s.Inv → t.stackAt s.sp = s.pc + 2#16) ∧
        (∀ k, k ≠ s.sp → t.stackAt k = s.stackAt k) ∧ OnlyChanges [.pc, .stack] [] s t)

/-- BNNN (40_control_flow.md, JP V0; by D9): PC becomes nnn + V0, which never exceeds 0x10FE. -/
def Obligations.JumpV0AddsV0 : Prop :=
  ∀ nnn : Addr12,
    decode (0xB#4 ++ nnn) = .jpV0 nnn ∧
    ∀ s : State, ∃ t, exec (.jpV0 nnn) s = .next t ∧
      t.pc.toNat = nnn.toNat + (s.reg 0x0#4).toNat ∧ t.pc.toNat ≤ 0x10FE ∧ OnlyChanges [.pc] [] s t

/-- R106, R107: SE and SNE with an immediate skip exactly one word, on equality and on inequality. -/
def Obligations.SkipOnImmediate : Prop :=
  ∀ (x : Reg) (nn : Byte),
    decode (0x3#4 ++ x ++ nn) = .seImm x nn ∧ decode (0x4#4 ++ x ++ nn) = .sneImm x nn ∧
    ∀ s : State,
      (∃ t, exec (.seImm x nn) s = .next t ∧
        t.pc = (if s.reg x = nn then s.pc + 4#16 else s.pc + 2#16) ∧ OnlyChanges [.pc] [] s t) ∧
      (∃ t, exec (.sneImm x nn) s = .next t ∧
        t.pc = (if s.reg x ≠ nn then s.pc + 4#16 else s.pc + 2#16) ∧ OnlyChanges [.pc] [] s t)

/-- SE and SNE with a register (40_control_flow.md, SE 5XY0 and SNE 9XY0); X = Y always skips the one and never the
other. -/
def Obligations.SkipOnRegister : Prop :=
  ∀ x y : Reg,
    decode (0x5#4 ++ x ++ y ++ 0x0#4) = .seReg x y ∧ decode (0x9#4 ++ x ++ y ++ 0x0#4) = .sneReg x y ∧
    ∀ s : State,
      (∃ t, exec (.seReg x y) s = .next t ∧
        t.pc = (if s.reg x = s.reg y then s.pc + 4#16 else s.pc + 2#16) ∧ OnlyChanges [.pc] [] s t) ∧
      (∃ t, exec (.sneReg x y) s = .next t ∧
        t.pc = (if s.reg x ≠ s.reg y then s.pc + 4#16 else s.pc + 2#16) ∧ OnlyChanges [.pc] [] s t)

/-- A CALL below the capacity, then a RET in any later state with the same stack, resumes at the word after the CALL
with the depth it had (40_control_flow.md, RET and CALL; 95_test_vectors.md S5). -/
def Obligations.CallThenReturn : Prop :=
  ∀ (s : State) (nnn : Addr12), s.Inv → s.sp < s.config.stackCapacity →
    ∃ t, exec (.call nnn) s = .next t ∧
      ∀ t' : State, t'.stack = t.stack → t'.sp = t.sp →
        ∃ u, exec .ret t' = .next u ∧ u.pc = s.pc + 2#16 ∧ u.sp = s.sp

/-! ### Register loads, ALU, random -/

/-- R131: LD Vx, nn. -/
def Obligations.LoadImmediate : Prop :=
  ∀ (x : Reg) (nn : Byte),
    decode (0x6#4 ++ x ++ nn) = .ldImm x nn ∧
    ∀ s : State, ∃ t, exec (.ldImm x nn) s = .next t ∧
      t.reg x = nn ∧ t.pc = s.pc + 2#16 ∧ OnlyChanges [.pc] [x] s t

/-- R132: ADD Vx, nn wraps in 8 bits and writes no flag (VF is in the frame unless it is the destination). -/
def Obligations.AddImmediate : Prop :=
  ∀ (x : Reg) (nn : Byte),
    decode (0x7#4 ++ x ++ nn) = .addImm x nn ∧
    ∀ s : State, ∃ t, exec (.addImm x nn) s = .next t ∧
      (t.reg x).toNat = ((s.reg x).toNat + nn.toNat) % 256 ∧ t.pc = s.pc + 2#16 ∧ OnlyChanges [.pc] [x] s t

/-- R133 to R136: LD, OR, AND, XOR between registers write V[x] and no flag. -/
def Obligations.RegisterLogic : Prop :=
  ∀ x y : Reg,
    decode (0x8#4 ++ x ++ y ++ 0x0#4) = .ldReg x y ∧ decode (0x8#4 ++ x ++ y ++ 0x1#4) = .orReg x y ∧
    decode (0x8#4 ++ x ++ y ++ 0x2#4) = .andReg x y ∧ decode (0x8#4 ++ x ++ y ++ 0x3#4) = .xorReg x y ∧
    ∀ s : State,
      (∃ t, exec (.ldReg x y) s = .next t ∧
        t.reg x = s.reg y ∧ t.pc = s.pc + 2#16 ∧ OnlyChanges [.pc] [x] s t) ∧
      (∃ t, exec (.orReg x y) s = .next t ∧
        t.reg x = s.reg x ||| s.reg y ∧ t.pc = s.pc + 2#16 ∧ OnlyChanges [.pc] [x] s t) ∧
      (∃ t, exec (.andReg x y) s = .next t ∧
        t.reg x = s.reg x &&& s.reg y ∧ t.pc = s.pc + 2#16 ∧ OnlyChanges [.pc] [x] s t) ∧
      (∃ t, exec (.xorReg x y) s = .next t ∧
        t.reg x = s.reg x ^^^ s.reg y ∧ t.pc = s.pc + 2#16 ∧ OnlyChanges [.pc] [x] s t)

/-- ADD Vx, Vy (41_register_alu.md, ADD; the order by D13). The sum is of the old values; VF takes the carry, then V[x]
the wrapped sum, which replaces the carry where X = F. -/
def Obligations.AddRegister : Prop :=
  ∀ x y : Reg,
    decode (0x8#4 ++ x ++ y ++ 0x4#4) = .addReg x y ∧
    ∀ s : State, ∃ t, exec (.addReg x y) s = .next t ∧
      (t.reg x).toNat = ((s.reg x).toNat + (s.reg y).toNat) % 256 ∧
      (x ≠ 0xF#4 → t.reg 0xF#4 = if (s.reg x).toNat + (s.reg y).toNat > 255 then 0x01#8 else 0x00#8) ∧
      t.pc = s.pc + 2#16 ∧ OnlyChanges [.pc] [x, 0xF#4] s t

/-- SUB Vx, Vy (41_register_alu.md, SUB): VF takes the strict comparison of the old values, then V[x] the difference of
the registers as they stand after that write (the order by D13), which replaces the flag where X = F. -/
def Obligations.SubRegister : Prop :=
  ∀ x y : Reg,
    decode (0x8#4 ++ x ++ y ++ 0x5#4) = .sub x y ∧
    ∀ s : State, ∃ t, exec (.sub x y) s = .next t ∧
      ∀ f : Byte, f = (if (s.reg x).toNat > (s.reg y).toNat then 0x01#8 else 0x00#8) →
        t.reg x = (if x = 0xF#4 then f else s.reg x) - (if y = 0xF#4 then f else s.reg y) ∧
        (x ≠ 0xF#4 → t.reg 0xF#4 = f) ∧
        t.pc = s.pc + 2#16 ∧ OnlyChanges [.pc] [x, 0xF#4] s t

/-- SUBN Vx, Vy (41_register_alu.md, SUBN; the order by D13): as SUB with the operands exchanged. -/
def Obligations.SubnRegister : Prop :=
  ∀ x y : Reg,
    decode (0x8#4 ++ x ++ y ++ 0x7#4) = .subn x y ∧
    ∀ s : State, ∃ t, exec (.subn x y) s = .next t ∧
      ∀ f : Byte, f = (if (s.reg y).toNat > (s.reg x).toNat then 0x01#8 else 0x00#8) →
        t.reg x = (if y = 0xF#4 then f else s.reg y) - (if x = 0xF#4 then f else s.reg x) ∧
        (x ≠ 0xF#4 → t.reg 0xF#4 = f) ∧
        t.pc = s.pc + 2#16 ∧ OnlyChanges [.pc] [x, 0xF#4] s t

/-- SHR Vx (41_register_alu.md, SHR; the order by D13): VF takes the low bit, V[x] is halved, V[y] plays no part; with
X = F the result is 0. -/
def Obligations.ShiftRight : Prop :=
  ∀ x y : Reg,
    decode (0x8#4 ++ x ++ y ++ 0x6#4) = .shr x y ∧
    ∀ s : State, ∃ t, exec (.shr x y) s = .next t ∧
      (x ≠ 0xF#4 → (t.reg x).toNat = (s.reg x).toNat / 2 ∧ (t.reg 0xF#4).toNat = (s.reg x).toNat % 2) ∧
      (x = 0xF#4 → t.reg 0xF#4 = 0x00#8) ∧
      t.pc = s.pc + 2#16 ∧ OnlyChanges [.pc] [x, 0xF#4] s t

/-- SHL Vx (41_register_alu.md, SHL; the order by D13, the flag form by D14): VF takes bit 7 as 0x00 or 0x80, V[x] is
doubled modulo 256, V[y] plays no part; with X = F the result is 0. Where the optional parameter SHL_FLAG_NORMALISED
is set (log 16), VF takes 0 or 1 and with X = F the result is twice that. -/
def Obligations.ShiftLeft : Prop :=
  ∀ x y : Reg,
    decode (0x8#4 ++ x ++ y ++ 0xE#4) = .shl x y ∧
    ∀ s : State, ∃ t, exec (.shl x y) s = .next t ∧
      ∀ f : Byte,
        f = (if (s.reg x).toNat < 128 then 0x00#8 else if s.config.shlFlagNormalised then 0x01#8 else 0x80#8) →
        (x ≠ 0xF#4 → (t.reg x).toNat = 2 * (s.reg x).toNat % 256 ∧ t.reg 0xF#4 = f) ∧
        (x = 0xF#4 → (t.reg 0xF#4).toNat = 2 * f.toNat % 256) ∧
        t.pc = s.pc + 2#16 ∧ OnlyChanges [.pc] [x, 0xF#4] s t

/-- The outcomes when VF is an operand (41_register_alu.md, the table of Class 8; by D13): each column of the table, for
the reference's flag form. -/
def Obligations.FlagOperandOutcomes : Prop :=
  ∀ (s : State) (r : Reg), r ≠ 0xF#4 → s.config.shlFlagNormalised = false →
    ∀ a b : Byte, a = s.reg r → b = s.reg 0xF#4 →
    -- X = F, Y ≠ F: the final VF
    (∃ t, exec (.addReg 0xF#4 r) s = .next t ∧ t.reg 0xF#4 = b + a) ∧
    (∃ t, exec (.sub 0xF#4 r) s = .next t ∧ t.reg 0xF#4 = (if b.toNat > a.toNat then 1#8 else 0#8) - a) ∧
    (∃ t, exec (.shr 0xF#4 r) s = .next t ∧ t.reg 0xF#4 = 0#8) ∧
    (∃ t, exec (.subn 0xF#4 r) s = .next t ∧ t.reg 0xF#4 = a - (if a.toNat > b.toNat then 1#8 else 0#8)) ∧
    (∃ t, exec (.shl 0xF#4 r) s = .next t ∧ t.reg 0xF#4 = 0#8) ∧
    -- Y = F, X ≠ F: the final V[x] and VF
    (∃ t, exec (.addReg r 0xF#4) s = .next t ∧ t.reg r = a + b ∧
      t.reg 0xF#4 = if a.toNat + b.toNat > 255 then 1#8 else 0#8) ∧
    (∃ t, exec (.sub r 0xF#4) s = .next t ∧ t.reg r = a - (if a.toNat > b.toNat then 1#8 else 0#8) ∧
      t.reg 0xF#4 = if a.toNat > b.toNat then 1#8 else 0#8) ∧
    (∃ t, exec (.shr r 0xF#4) s = .next t ∧ t.reg r = a >>> 1 ∧ t.reg 0xF#4 = a &&& 1#8) ∧
    (∃ t, exec (.subn r 0xF#4) s = .next t ∧ t.reg r = (if b.toNat > a.toNat then 1#8 else 0#8) - a ∧
      t.reg 0xF#4 = if b.toNat > a.toNat then 1#8 else 0#8) ∧
    (∃ t, exec (.shl r 0xF#4) s = .next t ∧ t.reg r = a <<< 1 ∧ t.reg 0xF#4 = a &&& 0x80#8) ∧
    -- X = Y = F: the final VF
    (∃ t, exec (.addReg 0xF#4 0xF#4) s = .next t ∧ t.reg 0xF#4 = b + b) ∧
    (∃ t, exec (.sub 0xF#4 0xF#4) s = .next t ∧ t.reg 0xF#4 = 0#8) ∧
    (∃ t, exec (.shr 0xF#4 0xF#4) s = .next t ∧ t.reg 0xF#4 = 0#8) ∧
    (∃ t, exec (.subn 0xF#4 0xF#4) s = .next t ∧ t.reg 0xF#4 = 0#8) ∧
    (∃ t, exec (.shl 0xF#4 0xF#4) s = .next t ∧ t.reg 0xF#4 = 0#8)

/-- RND Vx, nn (41_register_alu.md, Random; the draw is free by D25, log 3): V[x] is one fresh draw masked by nn, so no
bit outside the mask is set, whatever the draw. -/
def Obligations.RandomIsMaskedDraw : Prop :=
  ∀ (x : Reg) (nn : Byte),
    decode (0xC#4 ++ x ++ nn) = .rnd x nn ∧
    ∀ s : State, ∃ t, exec (.rnd x nn) s = .next t ∧
      t.reg x = Config.freeByte s.draws &&& nn ∧ t.draws = s.draws + 1 ∧ t.reg x &&& ~~~nn = 0x00#8 ∧
      t.pc = s.pc + 2#16 ∧ OnlyChanges [.pc, .draws] [x] s t

/-! ### Display -/

/-- R171: CLS turns every cell off and writes nothing else but PC. -/
def Obligations.ClearTurnsEveryCellOff : Prop :=
  decode 0x00E0#16 = .cls ∧
  ∀ s : State, ∃ t, exec .cls s = .next t ∧
    (∀ px py, t.cell px py = false) ∧ t.pc = s.pc + 2#16 ∧ OnlyChanges [.disp, .pc] [] s t

/-- DRW (42_display.md; the bit order by D7, the latched coordinates by D15, the address wrap by D2): the loop turns over
exactly the cells that a set sprite bit lands on, and VF is 1 exactly when one of them was on before. -/
def Obligations.DrawXorsTheSprite : Prop :=
  ∀ (x y : Reg) (n : Nibble),
    decode (0xD#4 ++ x ++ y ++ n) = .drw x y n ∧
    ∀ s : State, ∃ t, exec (.drw x y n) s = .next t ∧
      (∀ px py, SpriteSets s (s.reg x) (s.reg y) n px py → t.cell px py = !s.cell px py) ∧
      (∀ px py, ¬ SpriteSets s (s.reg x) (s.reg y) n px py → t.cell px py = s.cell px py) ∧
      ((∃ px py, SpriteSets s (s.reg x) (s.reg y) n px py ∧ s.cell px py = true) → t.reg 0xF#4 = 0x01#8) ∧
      ((∀ px py, SpriteSets s (s.reg x) (s.reg y) n px py → s.cell px py = false) → t.reg 0xF#4 = 0x00#8) ∧
      t.pc = s.pc + 2#16 ∧ OnlyChanges [.disp, .pc] [0xF#4] s t

/-- Drawing the same sprite twice, with neither X nor Y = F, restores every cell; the second draw sets VF exactly when a
set bit lands on a cell that was off before the first (42_display.md, property 2 of DRW; the bit order by D7, the
address wrap by D2). -/
def Obligations.DrawTwiceRestores : Prop :=
  ∀ (x y : Reg) (n : Nibble) (s : State), x ≠ 0xF#4 → y ≠ 0xF#4 →
    ∃ t u, exec (.drw x y n) s = .next t ∧ exec (.drw x y n) t = .next u ∧
      (∀ px py, u.cell px py = s.cell px py) ∧
      (u.reg 0xF#4 = 0x01#8 ↔ ∃ px py, SpriteSets s (s.reg x) (s.reg y) n px py ∧ s.cell px py = false)

/-! ### Keypad and timers -/

/-- SKP and SKNP (43_keypad_timers.md): the one skips when the key V[x] names is pressed, the other when it is not; by
D16 (log 14) a value of 16 or more is a key not pressed, so it never skips the one and always the other. -/
def Obligations.SkipOnKey : Prop :=
  ∀ x : Reg,
    decode (0xE#4 ++ x ++ 0x9E#8) = .skp x ∧ decode (0xE#4 ++ x ++ 0xA1#8) = .sknp x ∧
    ∀ s : State,
      (∃ t, exec (.skp x) s = .next t ∧ OnlyChanges [.pc] [] s t ∧
        ∀ k : Fin 16, (s.reg x).toNat = k.val →
          t.pc = if s.key.get k = true then s.pc + 4#16 else s.pc + 2#16) ∧
      (∃ t, exec (.sknp x) s = .next t ∧ OnlyChanges [.pc] [] s t ∧
        ∀ k : Fin 16, (s.reg x).toNat = k.val →
          t.pc = if s.key.get k = false then s.pc + 4#16 else s.pc + 2#16) ∧
      (0x10 ≤ (s.reg x).toNat →
        (∃ t, exec (.skp x) s = .next t ∧ t.pc = s.pc + 2#16) ∧
        ∃ t, exec (.sknp x) s = .next t ∧ t.pc = s.pc + 4#16)

/-- R193: FX07 copies DT into V[x]. -/
def Obligations.ReadDelayTimer : Prop :=
  ∀ x : Reg,
    decode (0xF#4 ++ x ++ 0x07#8) = .ldVxDt x ∧
    ∀ s : State, ∃ t, exec (.ldVxDt x) s = .next t ∧
      t.reg x = s.dt ∧ t.pc = s.pc + 2#16 ∧ OnlyChanges [.pc] [x] s t

/-- R197, R198: FX15 and FX18 copy V[x] into DT and ST. -/
def Obligations.WriteTimers : Prop :=
  ∀ x : Reg,
    decode (0xF#4 ++ x ++ 0x15#8) = .ldDtVx x ∧ decode (0xF#4 ++ x ++ 0x18#8) = .ldStVx x ∧
    ∀ s : State,
      (∃ t, exec (.ldDtVx x) s = .next t ∧
        t.dt = s.reg x ∧ t.pc = s.pc + 2#16 ∧ OnlyChanges [.dt, .pc] [] s t) ∧
      (∃ t, exec (.ldStVx x) s = .next t ∧
        t.st = s.reg x ∧ t.pc = s.pc + 2#16 ∧ OnlyChanges [.st, .pc] [] s t)

/-- FX0A starts the wait and writes STATUS alone (43_keypad_timers.md, FX0A; by D17). A key press then writes V[x] and
LASTKEY, moves PC past the instruction and resumes; it leaves KEY as it is. -/
def Obligations.KeyWaitThenKeyPress : Prop :=
  ∀ x : Reg,
    decode (0xF#4 ++ x ++ 0x0A#8) = .ldVxK x ∧
    (∀ s : State, ∃ t, exec (.ldVxK x) s = .next t ∧ t.status = .waitKey x ∧ OnlyChanges [.status] [] s t) ∧
    ∀ (s : State) (k : Nibble), s.status = .waitKey x →
      (s.keyPress k).lastKey = k ∧ ((s.keyPress k).reg x).toNat = k.toNat ∧
      (s.keyPress k).pc = s.pc + 2#16 ∧ (s.keyPress k).status = .run ∧
      OnlyChanges [.lastKey, .pc, .status] [x] s (s.keyPress k)

/-- The wait (60_exceptions.md, multiprocessing, debug and power; 43_keypad_timers.md): only FX0A enters it, and
without a key press any actions leave everything but KEY, DT and ST, STATUS included, as it was. -/
def Obligations.OnlyKeyPressLeavesTheWait : Prop :=
  (∀ (i : Instr) (s t : State) (x : Reg), s.status = .run → exec i s = .next t → t.status = .waitKey x →
    i = .ldVxK x) ∧
  ∀ (s t : State) (x : Reg) (actions : List HostAction), s.status = .waitKey x →
    (∀ k, HostAction.keyPress k ∉ actions) → runActions s actions = .next t →
    OnlyChanges [.key, .dt, .st] [] s t

/-- Outside a wait a key press has no effect (43_keypad_timers.md, FX0A; by D17). -/
def Obligations.KeyPressNeedsTheWait : Prop :=
  ∀ (s : State) (k : Nibble), (∀ x, s.status ≠ .waitKey x) → act s (.keyPress k) = .next s

/-- A fault is final (60_exceptions.md, synchronous faults; by D20): whatever the host does, only KEY can change. -/
def Obligations.FaultIsFinal : Prop :=
  ∀ (s t : State) (actions : List HostAction), s.Faulted → runActions s actions = .next t →
    OnlyChanges [.key] [] s t

/-! ### Host actions and reset -/

/-- SetKeys writes every key flag from the mask, in any STATUS, and nothing else (43_keypad_timers.md, host actions). -/
def Obligations.SetKeysWritesTheMask : Prop :=
  ∀ (s : State) (m : Word), ∃ t, act s (.setKeys m) = .next t ∧
    (∀ k : Fin 16, t.key.get k = m.getLsbD k.val) ∧ OnlyChanges [.key] [] s t

/-- TimerTick counts each nonzero timer down by 1, stops at 0, and does nothing when disabled or in FAULT
(43_keypad_timers.md, host actions; by D18). -/
def Obligations.TimerTickCountsDown : Prop :=
  ∀ s : State, ∃ t, act s .timerTick = .next t ∧ OnlyChanges [.dt, .st] [] s t ∧
    (s.config.timerTickEnabled = true → ¬ s.Faulted →
      t.dt.toNat = s.dt.toNat - 1 ∧ t.st.toNat = s.st.toNat - 1) ∧
    (s.config.timerTickEnabled = false ∨ s.Faulted → t = s)

/-- Host actions between two steps commute, but a second key press has no effect (60_exceptions.md, interrupts). -/
def Obligations.HostActionsCommute : Prop :=
  ∀ (s : State) (m : Word) (k j : Nibble),
    (s.setKeys m).timerTick = s.timerTick.setKeys m ∧
    (s.setKeys m).keyPress k = (s.keyPress k).setKeys m ∧
    s.timerTick.keyPress k = (s.keyPress k).timerTick ∧
    (s.keyPress k).keyPress j = s.keyPress k

/-- Create (70_reset_and_hazards.md, reset and creation; the zeros the source does not give are D19): font, program and
zeros in memory, every other element at its value; a program over 3584 bytes builds nothing. -/
def Obligations.CreateBuildsTheState : Prop :=
  ∀ (c : Config) (program : List Byte),
    (3584 < program.length → create c program = none) ∧
    (program.length ≤ 3584 → ∃ s, create c program = some s ∧
      (∀ a : Fin 80, s.memRead a.val = c.font.get a) ∧
      (∀ k : Fin program.length, s.memRead (0x200 + k.val) = program.get k) ∧
      (∀ a, 80 ≤ a → a < 0x200 → s.memRead a = 0x00#8) ∧
      (∀ a, 0x200 + program.length ≤ a → a < 4096 → s.memRead a = 0x00#8) ∧
      (∀ r, s.reg r = 0x00#8) ∧ s.i = 0#16 ∧ s.pc = 0x200#16 ∧
      s.stack = List.replicate c.stackCapacity 0#16 ∧ s.sp = 0 ∧ s.dt = 0#8 ∧ s.st = 0#8 ∧
      (∀ px py, s.cell px py = false) ∧ (∀ k, s.key.get k = false) ∧ s.lastKey = 0#4 ∧ s.status = .run ∧
      s.config = c)

/-- The reset state is the machine created with the default parameters and no program byte (10_state.md section 10; the
defaults are D5, D6, D14, D18): PC 0x200, 100 stack entries, RUN, and its first step runs the zero word as SYS. -/
def Obligations.ResetIsTheEmptyCreation : Prop :=
  create defaultConfig [] = some State.reset ∧ State.reset.pc = 0x200#16 ∧ State.reset.status = .run ∧
  State.reset.stack.length = 100 ∧ State.reset.fetch = 0x0000#16 ∧
  step State.reset = .next (State.reset.jump 0x202#16)

/-! ### Index register and memory transfer -/

/-- ANNN (44_index_memory.md, LD I; by D8). -/
def Obligations.LoadIndex : Prop :=
  ∀ nnn : Addr12,
    decode (0xA#4 ++ nnn) = .ldI nnn ∧
    ∀ s : State, ∃ t, exec (.ldI nnn) s = .next t ∧
      t.i.toNat = nnn.toNat ∧ t.pc = s.pc + 2#16 ∧ OnlyChanges [.i, .pc] [] s t

/-- FX1E adds V[x] to I modulo 4096 and writes no VF (44_index_memory.md, ADD I; by D4). -/
def Obligations.AddIndexWraps : Prop :=
  ∀ x : Reg,
    decode (0xF#4 ++ x ++ 0x1E#8) = .addIVx x ∧
    ∀ s : State, ∃ t, exec (.addIVx x) s = .next t ∧
      t.i.toNat = (s.i.toNat + (s.reg x).toNat) % 4096 ∧ t.pc = s.pc + 2#16 ∧ OnlyChanges [.i, .pc] [] s t

/-- R222: FX29 sets I to V[x] times 5, the whole byte. -/
def Obligations.FontAddressIsTimesFive : Prop :=
  ∀ x : Reg,
    decode (0xF#4 ++ x ++ 0x29#8) = .ldFVx x ∧
    ∀ s : State, ∃ t, exec (.ldFVx x) s = .next t ∧
      t.i.toNat = (s.reg x).toNat * 5 ∧ t.pc = s.pc + 2#16 ∧ OnlyChanges [.i, .pc] [] s t

/-- FX33 stores the hundreds, tens and ones of V[x] at I, I+1, I+2, each address reduced by the port, and leaves I and
every other byte as they were (44_index_memory.md, LD B; I kept by D22, the wrap by D2). -/
def Obligations.BcdStoresThreeDigits : Prop :=
  ∀ x : Reg,
    decode (0xF#4 ++ x ++ 0x33#8) = .ldBVx x ∧
    ∀ s : State, ∃ t, exec (.ldBVx x) s = .next t ∧
      (t.memRead s.i.toNat).toNat = (s.reg x).toNat / 100 ∧
      (t.memRead (s.i.toNat + 1)).toNat = (s.reg x).toNat / 10 % 10 ∧
      (t.memRead (s.i.toNat + 2)).toNat = (s.reg x).toNat % 10 ∧
      OnlyStores [s.i.toNat, s.i.toNat + 1, s.i.toNat + 2] s t ∧
      t.pc = s.pc + 2#16 ∧ OnlyChanges [.mem, .pc] [] s t

/-- FX55 stores V0 to Vx at I to I+x, each address reduced by the port, and leaves I and every other byte as they were
(44_index_memory.md, LD [I]; I kept by D22, the wrap by D2). -/
def Obligations.DumpStoresRegisters : Prop :=
  ∀ x : Reg,
    decode (0xF#4 ++ x ++ 0x55#8) = .ldMemVx x ∧
    ∀ s : State, ∃ t, exec (.ldMemVx x) s = .next t ∧
      (∀ r : Reg, r.toNat ≤ x.toNat → t.memRead (s.i.toNat + r.toNat) = s.reg r) ∧
      OnlyStores ((List.range (x.toNat + 1)).map (s.i.toNat + ·)) s t ∧
      t.pc = s.pc + 2#16 ∧ OnlyChanges [.mem, .pc] [] s t

/-- FX65 loads V0 to Vx from I to I+x and leaves I and the higher registers as they were (44_index_memory.md, LD Vx, [I];
I kept by D22, the wrap by D2). -/
def Obligations.LoadFillsRegisters : Prop :=
  ∀ x : Reg,
    decode (0xF#4 ++ x ++ 0x65#8) = .ldVxMem x ∧
    ∀ s : State, ∃ t, exec (.ldVxMem x) s = .next t ∧
      (∀ r : Reg, r.toNat ≤ x.toNat → t.reg r = s.memRead (s.i.toNat + r.toNat)) ∧
      t.pc = s.pc + 2#16 ∧ OnlyChanges [.pc] ((List.range (x.toNat + 1)).map (BitVec.ofNat 4)) s t

/-- FX55, then FX65 with the same X in any later state with the same memory and I, restores V0 to Vx
(44_index_memory.md, LD Vx, [I]; 95_test_vectors.md S6). -/
def Obligations.DumpThenLoadRestores : Prop :=
  ∀ (x : Reg) (s : State), ∃ t, exec (.ldMemVx x) s = .next t ∧
    ∀ t' : State, Part.Same t t' .mem → t'.i = t.i →
      ∃ u, exec (.ldVxMem x) t' = .next u ∧ ∀ r : Reg, r.toNat ≤ x.toNat → u.reg r = s.reg r

/-- A store is seen by the very next fetch (20_memory.md, sections 2 and 5; by D24): after FX55 with X ≥ 1, a fetch at I
reads the word V0·0x100 + V1, and a step there runs it. -/
def Obligations.StoredWordIsFetched : Prop :=
  ∀ (x : Reg) (s : State), 1 ≤ x.toNat → s.status = .run →
    ∃ t, exec (.ldMemVx x) s = .next t ∧
      (t.jump s.i).fetch.toNat = 256 * (s.reg 0x0#4).toNat + (s.reg 0x1#4).toNat ∧
      step (t.jump s.i) = exec (decode (s.reg 0x0#4 ++ s.reg 0x1#4)) (t.jump s.i)

/-! ### The end of a run -/

/-- An idle state is a fixed point of the step (70_reset_and_hazards.md section 2; the definition is D20). -/
def Obligations.IdleIsAFixedPoint : Prop := ∀ s : State, s.Idle → step s = .next s
end

