-- ==== Sys2Proof/Laws/Decode.lean ====
section
/-!
SUPPORT. The fields of a word built from its fields, for each operand shape (30_encoding.md R81), and the bytes of a
word put together again (20_memory.md R62).
-/

namespace Sys2Proof

theorem extract_append_hi {m n : Nat} (a : BitVec m) (b : BitVec n) : (a ++ b).extractLsb' n m = a := by
  ext i h
  simp [BitVec.getLsbD_append, BitVec.getLsbD_eq_getElem, h]

theorem extract_append_lo {m n : Nat} (a : BitVec m) (b : BitVec n) : (a ++ b).extractLsb' 0 n = b := by
  ext i h
  simp [BitVec.getLsbD_append, BitVec.getLsbD_eq_getElem, h]

/-- A field above the low part is a field of the high part. -/
theorem extract_append_above {m n : Nat} (a : BitVec m) (b : BitVec n) (k l : Nat) :
    (a ++ b).extractLsb' (n + k) l = a.extractLsb' k l := by
  ext i h
  simp [BitVec.getLsbD_append, Nat.add_assoc]

@[simp] theorem fieldC_encNNN (c : Nibble) (nnn : Addr12) : fieldC (encNNN c nnn) = c :=
  extract_append_hi c nnn

@[simp] theorem fieldNNN_encNNN (c : Nibble) (nnn : Addr12) : fieldNNN (encNNN c nnn) = nnn :=
  extract_append_lo c nnn

@[simp] theorem fieldC_encXNN (c : Nibble) (x : Reg) (nn : Byte) : fieldC (encXNN c x nn) = c :=
  (extract_append_above (c ++ x) nn 4 4).trans (extract_append_hi c x)

@[simp] theorem fieldX_encXNN (c : Nibble) (x : Reg) (nn : Byte) : fieldX (encXNN c x nn) = x :=
  (extract_append_above (c ++ x) nn 0 4).trans (extract_append_lo c x)

@[simp] theorem fieldNN_encXNN (c : Nibble) (x : Reg) (nn : Byte) : fieldNN (encXNN c x nn) = nn :=
  extract_append_lo (c ++ x) nn

@[simp] theorem fieldC_encXYN (c : Nibble) (x y : Reg) (n : Nibble) : fieldC (encXYN c x y n) = c :=
  (extract_append_above (c ++ x ++ y) n 8 4).trans
    ((extract_append_above (c ++ x) y 4 4).trans (extract_append_hi c x))

@[simp] theorem fieldX_encXYN (c : Nibble) (x y : Reg) (n : Nibble) : fieldX (encXYN c x y n) = x :=
  (extract_append_above (c ++ x ++ y) n 4 4).trans
    ((extract_append_above (c ++ x) y 0 4).trans (extract_append_lo c x))

@[simp] theorem fieldY_encXYN (c : Nibble) (x y : Reg) (n : Nibble) : fieldY (encXYN c x y n) = y :=
  (extract_append_above (c ++ x ++ y) n 0 4).trans (extract_append_lo (c ++ x) y)

@[simp] theorem fieldN_encXYN (c : Nibble) (x y : Reg) (n : Nibble) : fieldN (encXYN c x y n) = n :=
  extract_append_lo (c ++ x ++ y) n

/-- A word whose class is not 0 is neither literal, so its class decides (R84). -/
theorem decode_of_class (w : Word) (h : fieldC w ≠ 0x0#4) : decode w = decodeClass w := by
  have hc : w ≠ 0x00E0#16 := fun e => h (e ▸ rfl)
  have hr : w ≠ 0x00EE#16 := fun e => h (e ▸ rfl)
  simp [decode, hc, hr]

theorem decode_encNNN (c : Nibble) (nnn : Addr12) (h : c ≠ 0x0#4) :
    decode (encNNN c nnn) = decodeClass (encNNN c nnn) := decode_of_class _ (by simpa using h)

theorem decode_encXNN (c : Nibble) (x : Reg) (nn : Byte) (h : c ≠ 0x0#4) :
    decode (encXNN c x nn) = decodeClass (encXNN c x nn) := decode_of_class _ (by simpa using h)

theorem decode_encXYN (c : Nibble) (x y : Reg) (n : Nibble) (h : c ≠ 0x0#4) :
    decode (encXYN c x y n) = decodeClass (encXYN c x y n) := decode_of_class _ (by simpa using h)

@[simp] theorem highByte_wordOfBytes (hi lo : Byte) : highByte (wordOfBytes hi lo) = hi := extract_append_hi hi lo

@[simp] theorem lowByte_wordOfBytes (hi lo : Byte) : lowByte (wordOfBytes hi lo) = lo := extract_append_lo hi lo

/-- A word is its two bytes. -/
@[simp] theorem wordOfBytes_bytes (w : Word) : wordOfBytes (highByte w) (lowByte w) = w :=
  (BitVec.extractLsb'_append_extractLsb'_eq_extractLsb' (x := w) (by rfl)).trans BitVec.extractLsb'_eq_self

end Sys2Proof
end

