-- ==== Sys2Proof/Laws/State.lean ====
section
/-!
SUPPORT. One lemma per field (and per accessor) per update of the state, so that no proof unfolds a record update.
-/

namespace Sys2Proof.Machine

variable (s : State)


/-! ### setReg -/

@[simp] theorem State.setReg_mem (x : Reg) (b : Byte) : (s.setReg x b).mem = s.mem := rfl
@[simp] theorem State.setReg_i (x : Reg) (b : Byte) : (s.setReg x b).i = s.i := rfl
@[simp] theorem State.setReg_pc (x : Reg) (b : Byte) : (s.setReg x b).pc = s.pc := rfl
@[simp] theorem State.setReg_stack (x : Reg) (b : Byte) : (s.setReg x b).stack = s.stack := rfl
@[simp] theorem State.setReg_sp (x : Reg) (b : Byte) : (s.setReg x b).sp = s.sp := rfl
@[simp] theorem State.setReg_dt (x : Reg) (b : Byte) : (s.setReg x b).dt = s.dt := rfl
@[simp] theorem State.setReg_st (x : Reg) (b : Byte) : (s.setReg x b).st = s.st := rfl
@[simp] theorem State.setReg_disp (x : Reg) (b : Byte) : (s.setReg x b).disp = s.disp := rfl
@[simp] theorem State.setReg_key (x : Reg) (b : Byte) : (s.setReg x b).key = s.key := rfl
@[simp] theorem State.setReg_lastKey (x : Reg) (b : Byte) : (s.setReg x b).lastKey = s.lastKey := rfl
@[simp] theorem State.setReg_status (x : Reg) (b : Byte) : (s.setReg x b).status = s.status := rfl
@[simp] theorem State.setReg_config (x : Reg) (b : Byte) : (s.setReg x b).config = s.config := rfl
@[simp] theorem State.setReg_draws (x : Reg) (b : Byte) : (s.setReg x b).draws = s.draws := rfl
@[simp] theorem State.setReg_memRead (x : Reg) (b : Byte) (a : Nat) : (s.setReg x b).memRead a = s.memRead a := rfl
@[simp] theorem State.setReg_cell (x : Reg) (b : Byte) (px : Fin 64) (py : Fin 32) : (s.setReg x b).cell px py = s.cell px py := rfl

/-! ### setFlag -/

@[simp] theorem State.setFlag_mem (b : Byte) : (s.setFlag b).mem = s.mem := rfl
@[simp] theorem State.setFlag_i (b : Byte) : (s.setFlag b).i = s.i := rfl
@[simp] theorem State.setFlag_pc (b : Byte) : (s.setFlag b).pc = s.pc := rfl
@[simp] theorem State.setFlag_stack (b : Byte) : (s.setFlag b).stack = s.stack := rfl
@[simp] theorem State.setFlag_sp (b : Byte) : (s.setFlag b).sp = s.sp := rfl
@[simp] theorem State.setFlag_dt (b : Byte) : (s.setFlag b).dt = s.dt := rfl
@[simp] theorem State.setFlag_st (b : Byte) : (s.setFlag b).st = s.st := rfl
@[simp] theorem State.setFlag_disp (b : Byte) : (s.setFlag b).disp = s.disp := rfl
@[simp] theorem State.setFlag_key (b : Byte) : (s.setFlag b).key = s.key := rfl
@[simp] theorem State.setFlag_lastKey (b : Byte) : (s.setFlag b).lastKey = s.lastKey := rfl
@[simp] theorem State.setFlag_status (b : Byte) : (s.setFlag b).status = s.status := rfl
@[simp] theorem State.setFlag_config (b : Byte) : (s.setFlag b).config = s.config := rfl
@[simp] theorem State.setFlag_draws (b : Byte) : (s.setFlag b).draws = s.draws := rfl
@[simp] theorem State.setFlag_memRead (b : Byte) (a : Nat) : (s.setFlag b).memRead a = s.memRead a := rfl
@[simp] theorem State.setFlag_cell (b : Byte) (px : Fin 64) (py : Fin 32) : (s.setFlag b).cell px py = s.cell px py := rfl

/-! ### setI -/

@[simp] theorem State.setI_mem (n : Nat) : (s.setI n).mem = s.mem := rfl
@[simp] theorem State.setI_v (n : Nat) : (s.setI n).v = s.v := rfl
@[simp] theorem State.setI_i (n : Nat) : (s.setI n).i = trunc16 (n % 4096) := rfl
@[simp] theorem State.setI_pc (n : Nat) : (s.setI n).pc = s.pc := rfl
@[simp] theorem State.setI_stack (n : Nat) : (s.setI n).stack = s.stack := rfl
@[simp] theorem State.setI_sp (n : Nat) : (s.setI n).sp = s.sp := rfl
@[simp] theorem State.setI_dt (n : Nat) : (s.setI n).dt = s.dt := rfl
@[simp] theorem State.setI_st (n : Nat) : (s.setI n).st = s.st := rfl
@[simp] theorem State.setI_disp (n : Nat) : (s.setI n).disp = s.disp := rfl
@[simp] theorem State.setI_key (n : Nat) : (s.setI n).key = s.key := rfl
@[simp] theorem State.setI_lastKey (n : Nat) : (s.setI n).lastKey = s.lastKey := rfl
@[simp] theorem State.setI_status (n : Nat) : (s.setI n).status = s.status := rfl
@[simp] theorem State.setI_config (n : Nat) : (s.setI n).config = s.config := rfl
@[simp] theorem State.setI_draws (n : Nat) : (s.setI n).draws = s.draws := rfl
@[simp] theorem State.setI_reg (n : Nat) (r : Reg) : (s.setI n).reg r = s.reg r := rfl
@[simp] theorem State.setI_memRead (n : Nat) (a : Nat) : (s.setI n).memRead a = s.memRead a := rfl
@[simp] theorem State.setI_cell (n : Nat) (px : Fin 64) (py : Fin 32) : (s.setI n).cell px py = s.cell px py := rfl

/-! ### setDt -/

@[simp] theorem State.setDt_mem (b : Byte) : (s.setDt b).mem = s.mem := rfl
@[simp] theorem State.setDt_v (b : Byte) : (s.setDt b).v = s.v := rfl
@[simp] theorem State.setDt_i (b : Byte) : (s.setDt b).i = s.i := rfl
@[simp] theorem State.setDt_pc (b : Byte) : (s.setDt b).pc = s.pc := rfl
@[simp] theorem State.setDt_stack (b : Byte) : (s.setDt b).stack = s.stack := rfl
@[simp] theorem State.setDt_sp (b : Byte) : (s.setDt b).sp = s.sp := rfl
@[simp] theorem State.setDt_dt (b : Byte) : (s.setDt b).dt = b := rfl
@[simp] theorem State.setDt_st (b : Byte) : (s.setDt b).st = s.st := rfl
@[simp] theorem State.setDt_disp (b : Byte) : (s.setDt b).disp = s.disp := rfl
@[simp] theorem State.setDt_key (b : Byte) : (s.setDt b).key = s.key := rfl
@[simp] theorem State.setDt_lastKey (b : Byte) : (s.setDt b).lastKey = s.lastKey := rfl
@[simp] theorem State.setDt_status (b : Byte) : (s.setDt b).status = s.status := rfl
@[simp] theorem State.setDt_config (b : Byte) : (s.setDt b).config = s.config := rfl
@[simp] theorem State.setDt_draws (b : Byte) : (s.setDt b).draws = s.draws := rfl
@[simp] theorem State.setDt_reg (b : Byte) (r : Reg) : (s.setDt b).reg r = s.reg r := rfl
@[simp] theorem State.setDt_memRead (b : Byte) (a : Nat) : (s.setDt b).memRead a = s.memRead a := rfl
@[simp] theorem State.setDt_cell (b : Byte) (px : Fin 64) (py : Fin 32) : (s.setDt b).cell px py = s.cell px py := rfl

/-! ### setSt -/

@[simp] theorem State.setSt_mem (b : Byte) : (s.setSt b).mem = s.mem := rfl
@[simp] theorem State.setSt_v (b : Byte) : (s.setSt b).v = s.v := rfl
@[simp] theorem State.setSt_i (b : Byte) : (s.setSt b).i = s.i := rfl
@[simp] theorem State.setSt_pc (b : Byte) : (s.setSt b).pc = s.pc := rfl
@[simp] theorem State.setSt_stack (b : Byte) : (s.setSt b).stack = s.stack := rfl
@[simp] theorem State.setSt_sp (b : Byte) : (s.setSt b).sp = s.sp := rfl
@[simp] theorem State.setSt_dt (b : Byte) : (s.setSt b).dt = s.dt := rfl
@[simp] theorem State.setSt_st (b : Byte) : (s.setSt b).st = b := rfl
@[simp] theorem State.setSt_disp (b : Byte) : (s.setSt b).disp = s.disp := rfl
@[simp] theorem State.setSt_key (b : Byte) : (s.setSt b).key = s.key := rfl
@[simp] theorem State.setSt_lastKey (b : Byte) : (s.setSt b).lastKey = s.lastKey := rfl
@[simp] theorem State.setSt_status (b : Byte) : (s.setSt b).status = s.status := rfl
@[simp] theorem State.setSt_config (b : Byte) : (s.setSt b).config = s.config := rfl
@[simp] theorem State.setSt_draws (b : Byte) : (s.setSt b).draws = s.draws := rfl
@[simp] theorem State.setSt_reg (b : Byte) (r : Reg) : (s.setSt b).reg r = s.reg r := rfl
@[simp] theorem State.setSt_memRead (b : Byte) (a : Nat) : (s.setSt b).memRead a = s.memRead a := rfl
@[simp] theorem State.setSt_cell (b : Byte) (px : Fin 64) (py : Fin 32) : (s.setSt b).cell px py = s.cell px py := rfl

/-! ### setStatus -/

@[simp] theorem State.setStatus_mem (u : Status) : (s.setStatus u).mem = s.mem := rfl
@[simp] theorem State.setStatus_v (u : Status) : (s.setStatus u).v = s.v := rfl
@[simp] theorem State.setStatus_i (u : Status) : (s.setStatus u).i = s.i := rfl
@[simp] theorem State.setStatus_pc (u : Status) : (s.setStatus u).pc = s.pc := rfl
@[simp] theorem State.setStatus_stack (u : Status) : (s.setStatus u).stack = s.stack := rfl
@[simp] theorem State.setStatus_sp (u : Status) : (s.setStatus u).sp = s.sp := rfl
@[simp] theorem State.setStatus_dt (u : Status) : (s.setStatus u).dt = s.dt := rfl
@[simp] theorem State.setStatus_st (u : Status) : (s.setStatus u).st = s.st := rfl
@[simp] theorem State.setStatus_disp (u : Status) : (s.setStatus u).disp = s.disp := rfl
@[simp] theorem State.setStatus_key (u : Status) : (s.setStatus u).key = s.key := rfl
@[simp] theorem State.setStatus_lastKey (u : Status) : (s.setStatus u).lastKey = s.lastKey := rfl
@[simp] theorem State.setStatus_status (u : Status) : (s.setStatus u).status = u := rfl
@[simp] theorem State.setStatus_config (u : Status) : (s.setStatus u).config = s.config := rfl
@[simp] theorem State.setStatus_draws (u : Status) : (s.setStatus u).draws = s.draws := rfl
@[simp] theorem State.setStatus_reg (u : Status) (r : Reg) : (s.setStatus u).reg r = s.reg r := rfl
@[simp] theorem State.setStatus_memRead (u : Status) (a : Nat) : (s.setStatus u).memRead a = s.memRead a := rfl
@[simp] theorem State.setStatus_cell (u : Status) (px : Fin 64) (py : Fin 32) : (s.setStatus u).cell px py = s.cell px py := rfl

/-! ### raise -/

@[simp] theorem State.raise_mem (k : FaultKind) (w : Word) : (s.raise k w).mem = s.mem := rfl
@[simp] theorem State.raise_v (k : FaultKind) (w : Word) : (s.raise k w).v = s.v := rfl
@[simp] theorem State.raise_i (k : FaultKind) (w : Word) : (s.raise k w).i = s.i := rfl
@[simp] theorem State.raise_pc (k : FaultKind) (w : Word) : (s.raise k w).pc = s.pc := rfl
@[simp] theorem State.raise_stack (k : FaultKind) (w : Word) : (s.raise k w).stack = s.stack := rfl
@[simp] theorem State.raise_sp (k : FaultKind) (w : Word) : (s.raise k w).sp = s.sp := rfl
@[simp] theorem State.raise_dt (k : FaultKind) (w : Word) : (s.raise k w).dt = s.dt := rfl
@[simp] theorem State.raise_st (k : FaultKind) (w : Word) : (s.raise k w).st = s.st := rfl
@[simp] theorem State.raise_disp (k : FaultKind) (w : Word) : (s.raise k w).disp = s.disp := rfl
@[simp] theorem State.raise_key (k : FaultKind) (w : Word) : (s.raise k w).key = s.key := rfl
@[simp] theorem State.raise_lastKey (k : FaultKind) (w : Word) : (s.raise k w).lastKey = s.lastKey := rfl
@[simp] theorem State.raise_status (k : FaultKind) (w : Word) : (s.raise k w).status = .fault k s.pc w := rfl
@[simp] theorem State.raise_config (k : FaultKind) (w : Word) : (s.raise k w).config = s.config := rfl
@[simp] theorem State.raise_draws (k : FaultKind) (w : Word) : (s.raise k w).draws = s.draws := rfl
@[simp] theorem State.raise_reg (k : FaultKind) (w : Word) (r : Reg) : (s.raise k w).reg r = s.reg r := rfl
@[simp] theorem State.raise_memRead (k : FaultKind) (w : Word) (a : Nat) : (s.raise k w).memRead a = s.memRead a := rfl
@[simp] theorem State.raise_cell (k : FaultKind) (w : Word) (px : Fin 64) (py : Fin 32) : (s.raise k w).cell px py = s.cell px py := rfl

/-! ### jump -/

@[simp] theorem State.jump_mem (p : Word) : (s.jump p).mem = s.mem := rfl
@[simp] theorem State.jump_v (p : Word) : (s.jump p).v = s.v := rfl
@[simp] theorem State.jump_i (p : Word) : (s.jump p).i = s.i := rfl
@[simp] theorem State.jump_pc (p : Word) : (s.jump p).pc = p := rfl
@[simp] theorem State.jump_stack (p : Word) : (s.jump p).stack = s.stack := rfl
@[simp] theorem State.jump_sp (p : Word) : (s.jump p).sp = s.sp := rfl
@[simp] theorem State.jump_dt (p : Word) : (s.jump p).dt = s.dt := rfl
@[simp] theorem State.jump_st (p : Word) : (s.jump p).st = s.st := rfl
@[simp] theorem State.jump_disp (p : Word) : (s.jump p).disp = s.disp := rfl
@[simp] theorem State.jump_key (p : Word) : (s.jump p).key = s.key := rfl
@[simp] theorem State.jump_lastKey (p : Word) : (s.jump p).lastKey = s.lastKey := rfl
@[simp] theorem State.jump_status (p : Word) : (s.jump p).status = s.status := rfl
@[simp] theorem State.jump_config (p : Word) : (s.jump p).config = s.config := rfl
@[simp] theorem State.jump_draws (p : Word) : (s.jump p).draws = s.draws := rfl
@[simp] theorem State.jump_reg (p : Word) (r : Reg) : (s.jump p).reg r = s.reg r := rfl
@[simp] theorem State.jump_memRead (p : Word) (a : Nat) : (s.jump p).memRead a = s.memRead a := rfl
@[simp] theorem State.jump_cell (p : Word) (px : Fin 64) (py : Fin 32) : (s.jump p).cell px py = s.cell px py := rfl

/-! ### advance -/

@[simp] theorem State.advance_mem : (s.advance).mem = s.mem := rfl
@[simp] theorem State.advance_v : (s.advance).v = s.v := rfl
@[simp] theorem State.advance_i : (s.advance).i = s.i := rfl
@[simp] theorem State.advance_pc : (s.advance).pc = s.pcPlus 2 := rfl
@[simp] theorem State.advance_stack : (s.advance).stack = s.stack := rfl
@[simp] theorem State.advance_sp : (s.advance).sp = s.sp := rfl
@[simp] theorem State.advance_dt : (s.advance).dt = s.dt := rfl
@[simp] theorem State.advance_st : (s.advance).st = s.st := rfl
@[simp] theorem State.advance_disp : (s.advance).disp = s.disp := rfl
@[simp] theorem State.advance_key : (s.advance).key = s.key := rfl
@[simp] theorem State.advance_lastKey : (s.advance).lastKey = s.lastKey := rfl
@[simp] theorem State.advance_status : (s.advance).status = s.status := rfl
@[simp] theorem State.advance_config : (s.advance).config = s.config := rfl
@[simp] theorem State.advance_draws : (s.advance).draws = s.draws := rfl
@[simp] theorem State.advance_reg (r : Reg) : (s.advance).reg r = s.reg r := rfl
@[simp] theorem State.advance_memRead (a : Nat) : (s.advance).memRead a = s.memRead a := rfl
@[simp] theorem State.advance_cell (px : Fin 64) (py : Fin 32) : (s.advance).cell px py = s.cell px py := rfl

/-! ### skipIf -/

@[simp] theorem State.skipIf_mem (c : Bool) : (s.skipIf c).mem = s.mem := by cases c <;> rfl
@[simp] theorem State.skipIf_v (c : Bool) : (s.skipIf c).v = s.v := by cases c <;> rfl
@[simp] theorem State.skipIf_i (c : Bool) : (s.skipIf c).i = s.i := by cases c <;> rfl
@[simp] theorem State.skipIf_pc (c : Bool) : (s.skipIf c).pc = if c then s.pcPlus 4 else s.pcPlus 2 := by cases c <;> rfl
@[simp] theorem State.skipIf_stack (c : Bool) : (s.skipIf c).stack = s.stack := by cases c <;> rfl
@[simp] theorem State.skipIf_sp (c : Bool) : (s.skipIf c).sp = s.sp := by cases c <;> rfl
@[simp] theorem State.skipIf_dt (c : Bool) : (s.skipIf c).dt = s.dt := by cases c <;> rfl
@[simp] theorem State.skipIf_st (c : Bool) : (s.skipIf c).st = s.st := by cases c <;> rfl
@[simp] theorem State.skipIf_disp (c : Bool) : (s.skipIf c).disp = s.disp := by cases c <;> rfl
@[simp] theorem State.skipIf_key (c : Bool) : (s.skipIf c).key = s.key := by cases c <;> rfl
@[simp] theorem State.skipIf_lastKey (c : Bool) : (s.skipIf c).lastKey = s.lastKey := by cases c <;> rfl
@[simp] theorem State.skipIf_status (c : Bool) : (s.skipIf c).status = s.status := by cases c <;> rfl
@[simp] theorem State.skipIf_config (c : Bool) : (s.skipIf c).config = s.config := by cases c <;> rfl
@[simp] theorem State.skipIf_draws (c : Bool) : (s.skipIf c).draws = s.draws := by cases c <;> rfl
@[simp] theorem State.skipIf_reg (c : Bool) (r : Reg) : (s.skipIf c).reg r = s.reg r := by cases c <;> rfl
@[simp] theorem State.skipIf_memRead (c : Bool) (a : Nat) : (s.skipIf c).memRead a = s.memRead a := by cases c <;> rfl
@[simp] theorem State.skipIf_cell (c : Bool) (px : Fin 64) (py : Fin 32) : (s.skipIf c).cell px py = s.cell px py := by cases c <;> rfl

/-! ### memWrite -/

@[simp] theorem State.memWrite_v (n : Nat) (b : Byte) : (s.memWrite n b).v = s.v := rfl
@[simp] theorem State.memWrite_i (n : Nat) (b : Byte) : (s.memWrite n b).i = s.i := rfl
@[simp] theorem State.memWrite_pc (n : Nat) (b : Byte) : (s.memWrite n b).pc = s.pc := rfl
@[simp] theorem State.memWrite_stack (n : Nat) (b : Byte) : (s.memWrite n b).stack = s.stack := rfl
@[simp] theorem State.memWrite_sp (n : Nat) (b : Byte) : (s.memWrite n b).sp = s.sp := rfl
@[simp] theorem State.memWrite_dt (n : Nat) (b : Byte) : (s.memWrite n b).dt = s.dt := rfl
@[simp] theorem State.memWrite_st (n : Nat) (b : Byte) : (s.memWrite n b).st = s.st := rfl
@[simp] theorem State.memWrite_disp (n : Nat) (b : Byte) : (s.memWrite n b).disp = s.disp := rfl
@[simp] theorem State.memWrite_key (n : Nat) (b : Byte) : (s.memWrite n b).key = s.key := rfl
@[simp] theorem State.memWrite_lastKey (n : Nat) (b : Byte) : (s.memWrite n b).lastKey = s.lastKey := rfl
@[simp] theorem State.memWrite_status (n : Nat) (b : Byte) : (s.memWrite n b).status = s.status := rfl
@[simp] theorem State.memWrite_config (n : Nat) (b : Byte) : (s.memWrite n b).config = s.config := rfl
@[simp] theorem State.memWrite_draws (n : Nat) (b : Byte) : (s.memWrite n b).draws = s.draws := rfl
@[simp] theorem State.memWrite_reg (n : Nat) (b : Byte) (r : Reg) : (s.memWrite n b).reg r = s.reg r := rfl
@[simp] theorem State.memWrite_cell (n : Nat) (b : Byte) (px : Fin 64) (py : Fin 32) : (s.memWrite n b).cell px py = s.cell px py := rfl

/-! ### setCell -/

@[simp] theorem State.setCell_mem (cx : Fin 64) (cy : Fin 32) (b : Bool) : (s.setCell cx cy b).mem = s.mem := rfl
@[simp] theorem State.setCell_v (cx : Fin 64) (cy : Fin 32) (b : Bool) : (s.setCell cx cy b).v = s.v := rfl
@[simp] theorem State.setCell_i (cx : Fin 64) (cy : Fin 32) (b : Bool) : (s.setCell cx cy b).i = s.i := rfl
@[simp] theorem State.setCell_pc (cx : Fin 64) (cy : Fin 32) (b : Bool) : (s.setCell cx cy b).pc = s.pc := rfl
@[simp] theorem State.setCell_stack (cx : Fin 64) (cy : Fin 32) (b : Bool) : (s.setCell cx cy b).stack = s.stack := rfl
@[simp] theorem State.setCell_sp (cx : Fin 64) (cy : Fin 32) (b : Bool) : (s.setCell cx cy b).sp = s.sp := rfl
@[simp] theorem State.setCell_dt (cx : Fin 64) (cy : Fin 32) (b : Bool) : (s.setCell cx cy b).dt = s.dt := rfl
@[simp] theorem State.setCell_st (cx : Fin 64) (cy : Fin 32) (b : Bool) : (s.setCell cx cy b).st = s.st := rfl
@[simp] theorem State.setCell_key (cx : Fin 64) (cy : Fin 32) (b : Bool) : (s.setCell cx cy b).key = s.key := rfl
@[simp] theorem State.setCell_lastKey (cx : Fin 64) (cy : Fin 32) (b : Bool) : (s.setCell cx cy b).lastKey = s.lastKey := rfl
@[simp] theorem State.setCell_status (cx : Fin 64) (cy : Fin 32) (b : Bool) : (s.setCell cx cy b).status = s.status := rfl
@[simp] theorem State.setCell_config (cx : Fin 64) (cy : Fin 32) (b : Bool) : (s.setCell cx cy b).config = s.config := rfl
@[simp] theorem State.setCell_draws (cx : Fin 64) (cy : Fin 32) (b : Bool) : (s.setCell cx cy b).draws = s.draws := rfl
@[simp] theorem State.setCell_reg (cx : Fin 64) (cy : Fin 32) (b : Bool) (r : Reg) : (s.setCell cx cy b).reg r = s.reg r := rfl
@[simp] theorem State.setCell_memRead (cx : Fin 64) (cy : Fin 32) (b : Bool) (a : Nat) : (s.setCell cx cy b).memRead a = s.memRead a := rfl

/-! ### clearDisplay -/

@[simp] theorem State.clearDisplay_mem : (s.clearDisplay).mem = s.mem := rfl
@[simp] theorem State.clearDisplay_v : (s.clearDisplay).v = s.v := rfl
@[simp] theorem State.clearDisplay_i : (s.clearDisplay).i = s.i := rfl
@[simp] theorem State.clearDisplay_pc : (s.clearDisplay).pc = s.pc := rfl
@[simp] theorem State.clearDisplay_stack : (s.clearDisplay).stack = s.stack := rfl
@[simp] theorem State.clearDisplay_sp : (s.clearDisplay).sp = s.sp := rfl
@[simp] theorem State.clearDisplay_dt : (s.clearDisplay).dt = s.dt := rfl
@[simp] theorem State.clearDisplay_st : (s.clearDisplay).st = s.st := rfl
@[simp] theorem State.clearDisplay_key : (s.clearDisplay).key = s.key := rfl
@[simp] theorem State.clearDisplay_lastKey : (s.clearDisplay).lastKey = s.lastKey := rfl
@[simp] theorem State.clearDisplay_status : (s.clearDisplay).status = s.status := rfl
@[simp] theorem State.clearDisplay_config : (s.clearDisplay).config = s.config := rfl
@[simp] theorem State.clearDisplay_draws : (s.clearDisplay).draws = s.draws := rfl
@[simp] theorem State.clearDisplay_reg (r : Reg) : (s.clearDisplay).reg r = s.reg r := rfl
@[simp] theorem State.clearDisplay_memRead (a : Nat) : (s.clearDisplay).memRead a = s.memRead a := rfl

/-! ### drawn -/

@[simp] theorem State.drawn_mem : (s.drawn).mem = s.mem := rfl
@[simp] theorem State.drawn_v : (s.drawn).v = s.v := rfl
@[simp] theorem State.drawn_i : (s.drawn).i = s.i := rfl
@[simp] theorem State.drawn_pc : (s.drawn).pc = s.pc := rfl
@[simp] theorem State.drawn_stack : (s.drawn).stack = s.stack := rfl
@[simp] theorem State.drawn_sp : (s.drawn).sp = s.sp := rfl
@[simp] theorem State.drawn_dt : (s.drawn).dt = s.dt := rfl
@[simp] theorem State.drawn_st : (s.drawn).st = s.st := rfl
@[simp] theorem State.drawn_disp : (s.drawn).disp = s.disp := rfl
@[simp] theorem State.drawn_key : (s.drawn).key = s.key := rfl
@[simp] theorem State.drawn_lastKey : (s.drawn).lastKey = s.lastKey := rfl
@[simp] theorem State.drawn_status : (s.drawn).status = s.status := rfl
@[simp] theorem State.drawn_config : (s.drawn).config = s.config := rfl
@[simp] theorem State.drawn_draws : (s.drawn).draws = s.draws + 1 := rfl
@[simp] theorem State.drawn_reg (r : Reg) : (s.drawn).reg r = s.reg r := rfl
@[simp] theorem State.drawn_memRead (a : Nat) : (s.drawn).memRead a = s.memRead a := rfl
@[simp] theorem State.drawn_cell (px : Fin 64) (py : Fin 32) : (s.drawn).cell px py = s.cell px py := rfl

/-! ### setKeys -/

@[simp] theorem State.setKeys_mem (m : Word) : (s.setKeys m).mem = s.mem := rfl
@[simp] theorem State.setKeys_v (m : Word) : (s.setKeys m).v = s.v := rfl
@[simp] theorem State.setKeys_i (m : Word) : (s.setKeys m).i = s.i := rfl
@[simp] theorem State.setKeys_pc (m : Word) : (s.setKeys m).pc = s.pc := rfl
@[simp] theorem State.setKeys_stack (m : Word) : (s.setKeys m).stack = s.stack := rfl
@[simp] theorem State.setKeys_sp (m : Word) : (s.setKeys m).sp = s.sp := rfl
@[simp] theorem State.setKeys_dt (m : Word) : (s.setKeys m).dt = s.dt := rfl
@[simp] theorem State.setKeys_st (m : Word) : (s.setKeys m).st = s.st := rfl
@[simp] theorem State.setKeys_disp (m : Word) : (s.setKeys m).disp = s.disp := rfl
@[simp] theorem State.setKeys_lastKey (m : Word) : (s.setKeys m).lastKey = s.lastKey := rfl
@[simp] theorem State.setKeys_status (m : Word) : (s.setKeys m).status = s.status := rfl
@[simp] theorem State.setKeys_config (m : Word) : (s.setKeys m).config = s.config := rfl
@[simp] theorem State.setKeys_draws (m : Word) : (s.setKeys m).draws = s.draws := rfl
@[simp] theorem State.setKeys_reg (m : Word) (r : Reg) : (s.setKeys m).reg r = s.reg r := rfl
@[simp] theorem State.setKeys_memRead (m : Word) (a : Nat) : (s.setKeys m).memRead a = s.memRead a := rfl
@[simp] theorem State.setKeys_cell (m : Word) (px : Fin 64) (py : Fin 32) : (s.setKeys m).cell px py = s.cell px py := rfl

end Sys2Proof.Machine
end

