-- ==== Sys2Proof/Laws/Memory.lean ====
section
/-!
SUPPORT. Memory as a list: a write is read back, leaves every other address alone, and keeps the canonical form.
-/

namespace Sys2Proof.Machine

theorem Memory.find_erase (m : Memory) (a k : Nat) :
    Memory.find (Memory.erase m a) k = if k = a then none else Memory.find m k := by
  induction m with
  | nil => simp [Memory.erase, Memory.find]
  | cons c rest ih =>
    obtain ⟨j, b⟩ := c
    simp only [Memory.erase, List.filter_cons] at ih ⊢
    by_cases hj : j = a
    · subst hj
      by_cases hk : k = j
      · simpa [hk, Memory.find] using by simpa [hk] using ih
      · simp [Memory.find, hk, Ne.symm hk, ih]
    · by_cases hk : k = a
      · simp [Memory.find, hj, hk, by simpa [hk] using ih]
      · simp [Memory.find, hj, hk, ih]

theorem Memory.find_insert (m : Memory) (a k : Nat) (b : Byte) (h : Memory.find m a = none) :
    Memory.find (Memory.insert m a b) k = if k = a then some b else Memory.find m k := by
  induction m with
  | nil => simp [Memory.insert, Memory.find, eq_comm]
  | cons c rest ih =>
    obtain ⟨j, b'⟩ := c
    have hj : j ≠ a := by
      rintro rfl
      simp [Memory.find] at h
    have hr : Memory.find rest a = none := by simpa [Memory.find, hj] using h
    simp only [Memory.insert]
    split
    · simp [Memory.find, eq_comm]
    · by_cases hk : j = k
      · subst hk
        simp [Memory.find, hj]
      · simp [Memory.find, hk, ih hr]

/-- What every address reads as after a write of one. -/
theorem Memory.read_write (font : Font) (m : Memory) (a k : Nat) (b : Byte) :
    Memory.read font (Memory.write font m a b) k = if k = a then b else Memory.read font m k := by
  have he : Memory.find (Memory.erase m a) a = none := by simp [Memory.find_erase]
  simp only [Memory.read, Memory.write]
  split
  · rename_i hb
    by_cases hk : k = a <;> simp [Memory.find_erase, hk, hb]
  · by_cases hk : k = a <;> simp [Memory.find_insert _ _ _ _ he, Memory.find_erase, hk]

theorem Memory.mem_insert (m : Memory) (a : Nat) (b : Byte) (c : Host.Cell) :
    c ∈ Memory.insert m a b ↔ c = (a, b) ∨ c ∈ m := by
  induction m with
  | nil => simp [Memory.insert]
  | cons d rest ih =>
    simp only [Memory.insert]
    split
    · simp
    · simp [ih, or_left_comm]

theorem Memory.insert_rising (m : Memory) (a : Nat) (b : Byte) (hm : m.Pairwise fun c d => c.1 < d.1)
    (ha : ∀ c ∈ m, c.1 ≠ a) : (Memory.insert m a b).Pairwise fun c d => c.1 < d.1 := by
  induction m with
  | nil => simp [Memory.insert]
  | cons d rest ih =>
    obtain ⟨hd, hrest⟩ := List.pairwise_cons.mp hm
    simp only [Memory.insert]
    split
    · rename_i hlt
      refine List.pairwise_cons.mpr ⟨fun c hc => ?_, hm⟩
      rcases List.mem_cons.mp hc with rfl | hc
      · exact hlt
      · exact hlt.trans (hd c hc)
    · rename_i hge
      refine List.pairwise_cons.mpr ⟨fun c hc => ?_, ih hrest fun c hc => ha c (List.mem_cons_of_mem _ hc)⟩
      rcases (Memory.mem_insert rest a b c).mp hc with rfl | hc
      · exact lt_of_le_of_ne (not_lt.mp hge) (ha d (List.mem_cons_self ..))
      · exact hd c hc

/-- A write inside MEM keeps the canonical form. -/
theorem Memory.write_wf (font : Font) (m : Memory) (a : Nat) (b : Byte) (ha : a < 4096)
    (h : Memory.wf font m) : Memory.wf font (Memory.write font m a b) := by
  obtain ⟨hs, hc⟩ := h
  have hse : (Memory.erase m a).Pairwise fun c d => c.1 < d.1 := hs.filter _
  have hce : ∀ c ∈ Memory.erase m a, c.1 ≠ a ∧ c.1 < 4096 ∧ c.2 ≠ Memory.boot font c.1 := fun c hm => by
    obtain ⟨hm, hne⟩ := List.mem_filter.mp hm
    exact ⟨by simpa using hne, hc c hm⟩
  simp only [Memory.write]
  split
  · exact ⟨hse, fun c hm => (hce c hm).2⟩
  · rename_i hb
    refine ⟨Memory.insert_rising _ _ _ hse fun c hm => (hce c hm).1, fun c hm => ?_⟩
    rcases (Memory.mem_insert _ _ _ _).mp hm with rfl | hm
    · exact ⟨ha, hb⟩
    · exact (hce c hm).2

/-- Reset memory has the canonical form. -/
theorem Memory.wf_nil (font : Font) : Memory.wf font [] := ⟨List.Pairwise.nil, by simp⟩

end Sys2Proof.Machine
end

