-- ==== Sys2Proof/Laws/Ops.lean ====
section
/-!
SUPPORT. For each shared operation, what it does, said once.
-/

namespace Sys2Proof.Machine

variable (s : State)

/-! ### Registers, the display and the memory port: what is read after a write -/

@[simp] theorem State.reg_setReg (x r : Reg) (b : Byte) :
    (s.setReg x b).reg r = if r = x then b else s.reg r := by
  have hx : x.toNat < 16 := x.isLt
  have hr : r.toNat < 16 := r.isLt
  by_cases h : r = x
  · subst h
    simp [State.reg, State.setReg, Vector.get_eq_getElem]
  · have : ¬ x.toNat = r.toNat := fun e => h (BitVec.eq_of_toNat_eq e.symm)
    simp [State.reg, State.setReg, Vector.get_eq_getElem, h, this]

@[simp] theorem State.reg_setFlag (r : Reg) (b : Byte) :
    (s.setFlag b).reg r = if r = regF then b else s.reg r := State.reg_setReg s regF r b

@[simp] theorem State.cell_setCell (px cx : Fin 64) (py cy : Fin 32) (b : Bool) :
    (s.setCell cx cy b).cell px py = if px = cx ∧ py = cy then b else s.cell px py := by
  by_cases hx : px = cx
  · subst hx
    by_cases hy : py = cy
    · subst hy
      simp [State.cell, State.setCell, Vector.get_eq_getElem]
    · have : ¬ cy.val = py.val := fun e => hy (Fin.ext e.symm)
      simp [State.cell, State.setCell, Vector.get_eq_getElem, hy, this]
  · have : ¬ cx.val = px.val := fun e => hx (Fin.ext e.symm)
    simp [State.cell, State.setCell, Vector.get_eq_getElem, hx, this]

@[simp] theorem State.cell_clearDisplay (px : Fin 64) (py : Fin 32) : s.clearDisplay.cell px py = false := by
  simp [State.cell, State.clearDisplay, Vector.get_eq_getElem]

@[simp] theorem State.memRead_mod (a : Nat) : s.memRead (a % 4096) = s.memRead a := by simp [State.memRead]

theorem State.memRead_memWrite (a n : Nat) (b : Byte) :
    (s.memWrite n b).memRead a = if a % 4096 = n % 4096 then b else s.memRead a := by
  simp [State.memRead, State.memWrite, Memory.read_write]

theorem State.memWrite_wf (n : Nat) (b : Byte) (h : Memory.wf s.config.font s.mem) :
    Memory.wf (s.memWrite n b).config.font (s.memWrite n b).mem :=
  Memory.write_wf _ _ _ _ (Nat.mod_lt _ (by decide)) h

/-- A list of bytes stored from an address: everything but memory is as before. -/
theorem State.memWriteList_fields (bytes : List Byte) (s : State) (n : Nat) :
    s.memWriteList n bytes = { s with mem := (s.memWriteList n bytes).mem } := by
  induction bytes generalizing s n with
  | nil => rfl
  | cons b rest ih =>
    simp only [State.memWriteList]
    rw [ih]
    rfl

theorem State.memWriteList_wf (bytes : List Byte) (s : State) (n : Nat) (h : Memory.wf s.config.font s.mem) :
    Memory.wf s.config.font (s.memWriteList n bytes).mem := by
  induction bytes generalizing s n with
  | nil => exact h
  | cons b rest ih => exact ih (s.memWrite n b) (n + 1) (s.memWrite_wf n b h)

/-! ### Faults and the stack -/

/-- A push and jump either faults, with STATUS alone written, or stores one entry and counts it. -/
theorem State.pushAndJump_cases (w v target : Word) :
    (s.sp = s.config.stackCapacity ∧
      s.pushAndJump w v target = { s with status := .fault .stackOverflow s.pc w }) ∨
    (s.sp ≠ s.config.stackCapacity ∧
      s.pushAndJump w v target = { s with stack := s.stack.set s.sp v, sp := s.sp + 1, pc := target }) := by
  by_cases h : s.sp = s.config.stackCapacity
  · exact .inl ⟨h, by simp [State.pushAndJump, h, State.raise, State.setStatus]⟩
  · exact .inr ⟨h, by simp [State.pushAndJump, h, State.jump]⟩

/-- A pop and jump either faults, with STATUS alone written, or drops one entry. -/
theorem State.popAndJump_cases (w : Word) :
    (s.sp = 0 ∧ s.popAndJump w = { s with status := .fault .stackUnderflow s.pc w }) ∨
    (s.sp ≠ 0 ∧ s.popAndJump w = { s with sp := s.sp - 1, pc := s.stackAt (s.sp - 1) }) := by
  by_cases h : s.sp = 0
  · exact .inl ⟨h, by simp [State.popAndJump, h, State.raise, State.setStatus]⟩
  · exact .inr ⟨h, by simp [State.popAndJump, h, State.jump]⟩

/-! ### Arithmetic -/

@[simp] theorem add8_eq (a b : Byte) : add8 a b = a + b := by
  simp [add8, trunc8, BitVec.ofNat_add]

@[simp] theorem sub8_eq (a b : Byte) : sub8 a b = a - b := by
  apply BitVec.eq_of_toNat_eq
  have := a.isLt
  have := b.isLt
  simp [sub8, trunc8, BitVec.toNat_sub]
  omega

@[simp] theorem shr8_eq (a : Byte) : shr8 a = a >>> 1 := by
  apply BitVec.eq_of_toNat_eq
  have := a.isLt
  simp [shr8, trunc8, BitVec.toNat_ushiftRight, Nat.shiftRight_eq_div_pow]
  omega

@[simp] theorem shl8_eq (a : Byte) : shl8 a = a <<< 1 := by
  apply BitVec.eq_of_toNat_eq
  simp [shl8, trunc8, BitVec.toNat_shiftLeft, Nat.shiftLeft_eq]

@[simp] theorem State.pcPlus_eq (n : Nat) : s.pcPlus n = s.pc + BitVec.ofNat 16 n := by
  simp [State.pcPlus, trunc16, BitVec.ofNat_add]

/-! ### The display loop: a drawn column changes VF and one cell at most -/

@[simp] theorem State.xorCell_cell (px cx : Fin 64) (py cy : Fin 32) :
    (s.xorCell cx cy).cell px py = if px = cx ∧ py = cy then !s.cell px py else s.cell px py := by
  by_cases h : px = cx ∧ py = cy
  · obtain ⟨rfl, rfl⟩ := h
    simp [State.xorCell]
  · simp only [State.xorCell]
    split <;> simp [h]

@[simp] theorem State.xorCell_reg (cx : Fin 64) (cy : Fin 32) (r : Reg) :
    (s.xorCell cx cy).reg r = if r = regF ∧ s.cell cx cy = true then collisionFlag else s.reg r := by
  simp only [State.xorCell]
  by_cases h : s.cell cx cy = true <;> simp [h]

/-- A drawn cell keeps everything but V and DISP. -/
theorem State.xorCell_fields (cx : Fin 64) (cy : Fin 32) :
    s.xorCell cx cy = { s with v := (s.xorCell cx cy).v, disp := (s.xorCell cx cy).disp } := by
  simp only [State.xorCell]
  split <;> rfl

theorem State.drawColumn_fields (x0 y0 : Byte) (r : Nat) (b : Byte) (c : Nat) :
    State.drawColumn x0 y0 r b s c =
      { s with v := (State.drawColumn x0 y0 r b s c).v, disp := (State.drawColumn x0 y0 r b s c).disp } := by
  simp only [State.drawColumn]
  split
  · exact s.xorCell_fields _ _
  · rfl

/-- Columns drawn one after the other keep everything but V and DISP. -/
theorem State.drawColumns_fields (x0 y0 : Byte) (r : Nat) (b : Byte) (cs : List Nat) (s : State) :
    cs.foldl (State.drawColumn x0 y0 r b) s =
      { s with v := (cs.foldl (State.drawColumn x0 y0 r b) s).v,
               disp := (cs.foldl (State.drawColumn x0 y0 r b) s).disp } := by
  induction cs generalizing s with
  | nil => rfl
  | cons c rest ih =>
    rw [List.foldl_cons, ih, State.drawColumn_fields s]

/-- Rows drawn one after the other keep everything but V and DISP. -/
theorem State.drawRowList_fields (x0 y0 : Byte) (rs : List Nat) (s : State) :
    rs.foldl (State.drawRow x0 y0) s =
      { s with v := (rs.foldl (State.drawRow x0 y0) s).v, disp := (rs.foldl (State.drawRow x0 y0) s).disp } := by
  induction rs generalizing s with
  | nil => rfl
  | cons r rest ih =>
    rw [List.foldl_cons, ih]
    simp only [State.drawRow]
    rw [State.drawColumns_fields x0 y0 r _ _ s]

/-! ### The register loops -/

/-- A list of FX55's stores keeps everything but memory. -/
theorem State.storeRegList_fields (ks : List Nat) (s : State) :
    ks.foldl State.storeReg s = { s with mem := (ks.foldl State.storeReg s).mem } := by
  induction ks generalizing s with
  | nil => rfl
  | cons k rest ih =>
    rw [List.foldl_cons, ih]
    rfl

/-- A list of FX65's loads keeps everything but the V registers. -/
theorem State.loadRegList_fields (ks : List Nat) (s : State) :
    ks.foldl State.loadReg s = { s with v := (ks.foldl State.loadReg s).v } := by
  induction ks generalizing s with
  | nil => rfl
  | cons k rest ih =>
    rw [List.foldl_cons, ih]
    rfl

/-- A list of FX55's stores keeps the canonical form. -/
theorem State.storeRegList_wf (ks : List Nat) (s : State) (h : Memory.wf s.config.font s.mem) :
    Memory.wf s.config.font (ks.foldl State.storeReg s).mem := by
  induction ks generalizing s with
  | nil => exact h
  | cons k rest ih => exact ih (s.storeReg k) (s.memWrite_wf _ _ h)

end Sys2Proof.Machine
end

