-- ==== Sys2Proof/Laws/Loops.lean ====
section
/-!
SUPPORT. What the loops (DRW, FX55, FX65, a list of stores) and the host actions keep, field by field.
-/

namespace Sys2Proof.Machine

variable (s : State)

/-! ### drawRows -/

theorem State.drawRows_fields (x0 y0 : Byte) (n : Nat) :
    State.drawRows x0 y0 n s = { s with v := (State.drawRows x0 y0 n s).v, disp := (State.drawRows x0 y0 n s).disp } :=
  State.drawRowList_fields x0 y0 (List.range n) s

@[simp] theorem State.drawRows_mem (x0 y0 : Byte) (n : Nat) : (State.drawRows x0 y0 n s).mem = s.mem := by rw [State.drawRows_fields]
@[simp] theorem State.drawRows_i (x0 y0 : Byte) (n : Nat) : (State.drawRows x0 y0 n s).i = s.i := by rw [State.drawRows_fields]
@[simp] theorem State.drawRows_pc (x0 y0 : Byte) (n : Nat) : (State.drawRows x0 y0 n s).pc = s.pc := by rw [State.drawRows_fields]
@[simp] theorem State.drawRows_stack (x0 y0 : Byte) (n : Nat) : (State.drawRows x0 y0 n s).stack = s.stack := by rw [State.drawRows_fields]
@[simp] theorem State.drawRows_sp (x0 y0 : Byte) (n : Nat) : (State.drawRows x0 y0 n s).sp = s.sp := by rw [State.drawRows_fields]
@[simp] theorem State.drawRows_dt (x0 y0 : Byte) (n : Nat) : (State.drawRows x0 y0 n s).dt = s.dt := by rw [State.drawRows_fields]
@[simp] theorem State.drawRows_st (x0 y0 : Byte) (n : Nat) : (State.drawRows x0 y0 n s).st = s.st := by rw [State.drawRows_fields]
@[simp] theorem State.drawRows_key (x0 y0 : Byte) (n : Nat) : (State.drawRows x0 y0 n s).key = s.key := by rw [State.drawRows_fields]
@[simp] theorem State.drawRows_lastKey (x0 y0 : Byte) (n : Nat) : (State.drawRows x0 y0 n s).lastKey = s.lastKey := by rw [State.drawRows_fields]
@[simp] theorem State.drawRows_status (x0 y0 : Byte) (n : Nat) : (State.drawRows x0 y0 n s).status = s.status := by rw [State.drawRows_fields]
@[simp] theorem State.drawRows_config (x0 y0 : Byte) (n : Nat) : (State.drawRows x0 y0 n s).config = s.config := by rw [State.drawRows_fields]
@[simp] theorem State.drawRows_draws (x0 y0 : Byte) (n : Nat) : (State.drawRows x0 y0 n s).draws = s.draws := by rw [State.drawRows_fields]
@[simp] theorem State.drawRows_memRead (x0 y0 : Byte) (n : Nat) (a : Nat) :
    (State.drawRows x0 y0 n s).memRead a = s.memRead a := by rw [State.drawRows_fields]; rfl

/-! ### storeRegs -/

theorem State.storeRegs_fields (n : Nat) :
    State.storeRegs n s = { s with mem := (State.storeRegs n s).mem } :=
  State.storeRegList_fields (List.range n) s

@[simp] theorem State.storeRegs_v (n : Nat) : (State.storeRegs n s).v = s.v := by rw [State.storeRegs_fields]
@[simp] theorem State.storeRegs_i (n : Nat) : (State.storeRegs n s).i = s.i := by rw [State.storeRegs_fields]
@[simp] theorem State.storeRegs_pc (n : Nat) : (State.storeRegs n s).pc = s.pc := by rw [State.storeRegs_fields]
@[simp] theorem State.storeRegs_stack (n : Nat) : (State.storeRegs n s).stack = s.stack := by rw [State.storeRegs_fields]
@[simp] theorem State.storeRegs_sp (n : Nat) : (State.storeRegs n s).sp = s.sp := by rw [State.storeRegs_fields]
@[simp] theorem State.storeRegs_dt (n : Nat) : (State.storeRegs n s).dt = s.dt := by rw [State.storeRegs_fields]
@[simp] theorem State.storeRegs_st (n : Nat) : (State.storeRegs n s).st = s.st := by rw [State.storeRegs_fields]
@[simp] theorem State.storeRegs_disp (n : Nat) : (State.storeRegs n s).disp = s.disp := by rw [State.storeRegs_fields]
@[simp] theorem State.storeRegs_key (n : Nat) : (State.storeRegs n s).key = s.key := by rw [State.storeRegs_fields]
@[simp] theorem State.storeRegs_lastKey (n : Nat) : (State.storeRegs n s).lastKey = s.lastKey := by rw [State.storeRegs_fields]
@[simp] theorem State.storeRegs_status (n : Nat) : (State.storeRegs n s).status = s.status := by rw [State.storeRegs_fields]
@[simp] theorem State.storeRegs_config (n : Nat) : (State.storeRegs n s).config = s.config := by rw [State.storeRegs_fields]
@[simp] theorem State.storeRegs_draws (n : Nat) : (State.storeRegs n s).draws = s.draws := by rw [State.storeRegs_fields]
@[simp] theorem State.storeRegs_reg (n : Nat) (r : Reg) :
    (State.storeRegs n s).reg r = s.reg r := by rw [State.storeRegs_fields]; rfl
@[simp] theorem State.storeRegs_cell (n : Nat) (px : Fin 64) (py : Fin 32) :
    (State.storeRegs n s).cell px py = s.cell px py := by rw [State.storeRegs_fields]; rfl

/-! ### loadRegs -/

theorem State.loadRegs_fields (n : Nat) :
    State.loadRegs n s = { s with v := (State.loadRegs n s).v } :=
  State.loadRegList_fields (List.range n) s

@[simp] theorem State.loadRegs_mem (n : Nat) : (State.loadRegs n s).mem = s.mem := by rw [State.loadRegs_fields]
@[simp] theorem State.loadRegs_i (n : Nat) : (State.loadRegs n s).i = s.i := by rw [State.loadRegs_fields]
@[simp] theorem State.loadRegs_pc (n : Nat) : (State.loadRegs n s).pc = s.pc := by rw [State.loadRegs_fields]
@[simp] theorem State.loadRegs_stack (n : Nat) : (State.loadRegs n s).stack = s.stack := by rw [State.loadRegs_fields]
@[simp] theorem State.loadRegs_sp (n : Nat) : (State.loadRegs n s).sp = s.sp := by rw [State.loadRegs_fields]
@[simp] theorem State.loadRegs_dt (n : Nat) : (State.loadRegs n s).dt = s.dt := by rw [State.loadRegs_fields]
@[simp] theorem State.loadRegs_st (n : Nat) : (State.loadRegs n s).st = s.st := by rw [State.loadRegs_fields]
@[simp] theorem State.loadRegs_disp (n : Nat) : (State.loadRegs n s).disp = s.disp := by rw [State.loadRegs_fields]
@[simp] theorem State.loadRegs_key (n : Nat) : (State.loadRegs n s).key = s.key := by rw [State.loadRegs_fields]
@[simp] theorem State.loadRegs_lastKey (n : Nat) : (State.loadRegs n s).lastKey = s.lastKey := by rw [State.loadRegs_fields]
@[simp] theorem State.loadRegs_status (n : Nat) : (State.loadRegs n s).status = s.status := by rw [State.loadRegs_fields]
@[simp] theorem State.loadRegs_config (n : Nat) : (State.loadRegs n s).config = s.config := by rw [State.loadRegs_fields]
@[simp] theorem State.loadRegs_draws (n : Nat) : (State.loadRegs n s).draws = s.draws := by rw [State.loadRegs_fields]
@[simp] theorem State.loadRegs_memRead (n : Nat) (a : Nat) :
    (State.loadRegs n s).memRead a = s.memRead a := by rw [State.loadRegs_fields]; rfl
@[simp] theorem State.loadRegs_cell (n : Nat) (px : Fin 64) (py : Fin 32) :
    (State.loadRegs n s).cell px py = s.cell px py := by rw [State.loadRegs_fields]; rfl

/-! ### memWriteList -/

@[simp] theorem State.memWriteList_v (n : Nat) (bytes : List Byte) : (s.memWriteList n bytes).v = s.v := by rw [State.memWriteList_fields]
@[simp] theorem State.memWriteList_i (n : Nat) (bytes : List Byte) : (s.memWriteList n bytes).i = s.i := by rw [State.memWriteList_fields]
@[simp] theorem State.memWriteList_pc (n : Nat) (bytes : List Byte) : (s.memWriteList n bytes).pc = s.pc := by rw [State.memWriteList_fields]
@[simp] theorem State.memWriteList_stack (n : Nat) (bytes : List Byte) : (s.memWriteList n bytes).stack = s.stack := by rw [State.memWriteList_fields]
@[simp] theorem State.memWriteList_sp (n : Nat) (bytes : List Byte) : (s.memWriteList n bytes).sp = s.sp := by rw [State.memWriteList_fields]
@[simp] theorem State.memWriteList_dt (n : Nat) (bytes : List Byte) : (s.memWriteList n bytes).dt = s.dt := by rw [State.memWriteList_fields]
@[simp] theorem State.memWriteList_st (n : Nat) (bytes : List Byte) : (s.memWriteList n bytes).st = s.st := by rw [State.memWriteList_fields]
@[simp] theorem State.memWriteList_disp (n : Nat) (bytes : List Byte) : (s.memWriteList n bytes).disp = s.disp := by rw [State.memWriteList_fields]
@[simp] theorem State.memWriteList_key (n : Nat) (bytes : List Byte) : (s.memWriteList n bytes).key = s.key := by rw [State.memWriteList_fields]
@[simp] theorem State.memWriteList_lastKey (n : Nat) (bytes : List Byte) : (s.memWriteList n bytes).lastKey = s.lastKey := by rw [State.memWriteList_fields]
@[simp] theorem State.memWriteList_status (n : Nat) (bytes : List Byte) : (s.memWriteList n bytes).status = s.status := by rw [State.memWriteList_fields]
@[simp] theorem State.memWriteList_config (n : Nat) (bytes : List Byte) : (s.memWriteList n bytes).config = s.config := by rw [State.memWriteList_fields]
@[simp] theorem State.memWriteList_draws (n : Nat) (bytes : List Byte) : (s.memWriteList n bytes).draws = s.draws := by rw [State.memWriteList_fields]
@[simp] theorem State.memWriteList_reg (n : Nat) (bytes : List Byte) (r : Reg) :
    (s.memWriteList n bytes).reg r = s.reg r := by rw [State.memWriteList_fields]; rfl
@[simp] theorem State.memWriteList_cell (n : Nat) (bytes : List Byte) (px : Fin 64) (py : Fin 32) :
    (s.memWriteList n bytes).cell px py = s.cell px py := by rw [State.memWriteList_fields]; rfl

/-- FX55's loop keeps the canonical form. -/
theorem State.storeRegs_wf (n : Nat) (h : Memory.wf s.config.font s.mem) :
    Memory.wf s.config.font (State.storeRegs n s).mem := State.storeRegList_wf (List.range n) s h

/-! ### keyPress -/

@[simp] theorem State.keyPress_mem (k : Nibble) : (s.keyPress k).mem = s.mem := by
  simp only [State.keyPress]; split <;> rfl
@[simp] theorem State.keyPress_i (k : Nibble) : (s.keyPress k).i = s.i := by
  simp only [State.keyPress]; split <;> rfl
@[simp] theorem State.keyPress_stack (k : Nibble) : (s.keyPress k).stack = s.stack := by
  simp only [State.keyPress]; split <;> rfl
@[simp] theorem State.keyPress_sp (k : Nibble) : (s.keyPress k).sp = s.sp := by
  simp only [State.keyPress]; split <;> rfl
@[simp] theorem State.keyPress_dt (k : Nibble) : (s.keyPress k).dt = s.dt := by
  simp only [State.keyPress]; split <;> rfl
@[simp] theorem State.keyPress_st (k : Nibble) : (s.keyPress k).st = s.st := by
  simp only [State.keyPress]; split <;> rfl
@[simp] theorem State.keyPress_disp (k : Nibble) : (s.keyPress k).disp = s.disp := by
  simp only [State.keyPress]; split <;> rfl
@[simp] theorem State.keyPress_key (k : Nibble) : (s.keyPress k).key = s.key := by
  simp only [State.keyPress]; split <;> rfl
@[simp] theorem State.keyPress_config (k : Nibble) : (s.keyPress k).config = s.config := by
  simp only [State.keyPress]; split <;> rfl
@[simp] theorem State.keyPress_draws (k : Nibble) : (s.keyPress k).draws = s.draws := by
  simp only [State.keyPress]; split <;> rfl
@[simp] theorem State.keyPress_memRead (k : Nibble) (a : Nat) : (s.keyPress k).memRead a = s.memRead a := by
  simp only [State.keyPress]; split <;> rfl
@[simp] theorem State.keyPress_cell (k : Nibble) (px : Fin 64) (py : Fin 32) : (s.keyPress k).cell px py = s.cell px py := by
  simp only [State.keyPress]; split <;> rfl

/-! ### timerTick -/

@[simp] theorem State.timerTick_mem : (s.timerTick).mem = s.mem := by
  simp only [State.timerTick]; split <;> rfl
@[simp] theorem State.timerTick_v : (s.timerTick).v = s.v := by
  simp only [State.timerTick]; split <;> rfl
@[simp] theorem State.timerTick_i : (s.timerTick).i = s.i := by
  simp only [State.timerTick]; split <;> rfl
@[simp] theorem State.timerTick_pc : (s.timerTick).pc = s.pc := by
  simp only [State.timerTick]; split <;> rfl
@[simp] theorem State.timerTick_stack : (s.timerTick).stack = s.stack := by
  simp only [State.timerTick]; split <;> rfl
@[simp] theorem State.timerTick_sp : (s.timerTick).sp = s.sp := by
  simp only [State.timerTick]; split <;> rfl
@[simp] theorem State.timerTick_disp : (s.timerTick).disp = s.disp := by
  simp only [State.timerTick]; split <;> rfl
@[simp] theorem State.timerTick_key : (s.timerTick).key = s.key := by
  simp only [State.timerTick]; split <;> rfl
@[simp] theorem State.timerTick_lastKey : (s.timerTick).lastKey = s.lastKey := by
  simp only [State.timerTick]; split <;> rfl
@[simp] theorem State.timerTick_status : (s.timerTick).status = s.status := by
  simp only [State.timerTick]; split <;> rfl
@[simp] theorem State.timerTick_config : (s.timerTick).config = s.config := by
  simp only [State.timerTick]; split <;> rfl
@[simp] theorem State.timerTick_draws : (s.timerTick).draws = s.draws := by
  simp only [State.timerTick]; split <;> rfl
@[simp] theorem State.timerTick_reg (r : Reg) : (s.timerTick).reg r = s.reg r := by
  simp only [State.timerTick]; split <;> rfl
@[simp] theorem State.timerTick_memRead (a : Nat) : (s.timerTick).memRead a = s.memRead a := by
  simp only [State.timerTick]; split <;> rfl
@[simp] theorem State.timerTick_cell (px : Fin 64) (py : Fin 32) : (s.timerTick).cell px py = s.cell px py := by
  simp only [State.timerTick]; split <;> rfl

end Sys2Proof.Machine
end

