-- ==== Sys2Proof/Laws/PerInstr.lean ====
section
/-!
SUPPORT. One family of per-instruction laws: the class nibble of an instruction's word is the one its row of
spec/opcode_table.json starts with (30_encoding.md R84, R85).
-/

namespace Sys2Proof.Laws.ClassNibble

/-- The first hexadecimal digit of an instruction's row; for a word that selects no instruction, one of the five
classes of R85's table. -/
def Statement : Instr → Prop
  | .cls => fieldC (encode .cls) = 0x0#4
  | .ret => fieldC (encode .ret) = 0x0#4
  | .sys nnn => fieldC (encode (.sys nnn)) = 0x0#4
  | .jp nnn => fieldC (encode (.jp nnn)) = 0x1#4
  | .call nnn => fieldC (encode (.call nnn)) = 0x2#4
  | .seImm x nn => fieldC (encode (.seImm x nn)) = 0x3#4
  | .sneImm x nn => fieldC (encode (.sneImm x nn)) = 0x4#4
  | .seReg x y => fieldC (encode (.seReg x y)) = 0x5#4
  | .ldImm x nn => fieldC (encode (.ldImm x nn)) = 0x6#4
  | .addImm x nn => fieldC (encode (.addImm x nn)) = 0x7#4
  | .ldReg x y => fieldC (encode (.ldReg x y)) = 0x8#4
  | .orReg x y => fieldC (encode (.orReg x y)) = 0x8#4
  | .andReg x y => fieldC (encode (.andReg x y)) = 0x8#4
  | .xorReg x y => fieldC (encode (.xorReg x y)) = 0x8#4
  | .addReg x y => fieldC (encode (.addReg x y)) = 0x8#4
  | .sub x y => fieldC (encode (.sub x y)) = 0x8#4
  | .shr x y => fieldC (encode (.shr x y)) = 0x8#4
  | .subn x y => fieldC (encode (.subn x y)) = 0x8#4
  | .shl x y => fieldC (encode (.shl x y)) = 0x8#4
  | .sneReg x y => fieldC (encode (.sneReg x y)) = 0x9#4
  | .ldI nnn => fieldC (encode (.ldI nnn)) = 0xA#4
  | .jpV0 nnn => fieldC (encode (.jpV0 nnn)) = 0xB#4
  | .rnd x nn => fieldC (encode (.rnd x nn)) = 0xC#4
  | .drw x y n => fieldC (encode (.drw x y n)) = 0xD#4
  | .skp x => fieldC (encode (.skp x)) = 0xE#4
  | .sknp x => fieldC (encode (.sknp x)) = 0xE#4
  | .ldVxDt x => fieldC (encode (.ldVxDt x)) = 0xF#4
  | .ldVxK x => fieldC (encode (.ldVxK x)) = 0xF#4
  | .ldDtVx x => fieldC (encode (.ldDtVx x)) = 0xF#4
  | .ldStVx x => fieldC (encode (.ldStVx x)) = 0xF#4
  | .addIVx x => fieldC (encode (.addIVx x)) = 0xF#4
  | .ldFVx x => fieldC (encode (.ldFVx x)) = 0xF#4
  | .ldBVx x => fieldC (encode (.ldBVx x)) = 0xF#4
  | .ldMemVx x => fieldC (encode (.ldMemVx x)) = 0xF#4
  | .ldVxMem x => fieldC (encode (.ldVxMem x)) = 0xF#4
  | .unrecognised w =>
    (Instr.unrecognised w).WellFormed →
      fieldC (encode (.unrecognised w)) ∈ [0x5#4, 0x8#4, 0x9#4, 0xE#4, 0xF#4]

theorem cls : Statement .cls := rfl
theorem ret : Statement .ret := rfl
theorem sys (nnn : Addr12) : Statement (.sys nnn) := fieldC_encNNN _ _
theorem jp (nnn : Addr12) : Statement (.jp nnn) := fieldC_encNNN _ _
theorem call (nnn : Addr12) : Statement (.call nnn) := fieldC_encNNN _ _
theorem ldI (nnn : Addr12) : Statement (.ldI nnn) := fieldC_encNNN _ _
theorem jpV0 (nnn : Addr12) : Statement (.jpV0 nnn) := fieldC_encNNN _ _
theorem seImm (x : Reg) (nn : Byte) : Statement (.seImm x nn) := fieldC_encXNN _ _ _
theorem sneImm (x : Reg) (nn : Byte) : Statement (.sneImm x nn) := fieldC_encXNN _ _ _
theorem ldImm (x : Reg) (nn : Byte) : Statement (.ldImm x nn) := fieldC_encXNN _ _ _
theorem addImm (x : Reg) (nn : Byte) : Statement (.addImm x nn) := fieldC_encXNN _ _ _
theorem rnd (x : Reg) (nn : Byte) : Statement (.rnd x nn) := fieldC_encXNN _ _ _
theorem seReg (x y : Reg) : Statement (.seReg x y) := fieldC_encXYN _ _ _ _
theorem ldReg (x y : Reg) : Statement (.ldReg x y) := fieldC_encXYN _ _ _ _
theorem orReg (x y : Reg) : Statement (.orReg x y) := fieldC_encXYN _ _ _ _
theorem andReg (x y : Reg) : Statement (.andReg x y) := fieldC_encXYN _ _ _ _
theorem xorReg (x y : Reg) : Statement (.xorReg x y) := fieldC_encXYN _ _ _ _
theorem addReg (x y : Reg) : Statement (.addReg x y) := fieldC_encXYN _ _ _ _
theorem sub (x y : Reg) : Statement (.sub x y) := fieldC_encXYN _ _ _ _
theorem shr (x y : Reg) : Statement (.shr x y) := fieldC_encXYN _ _ _ _
theorem subn (x y : Reg) : Statement (.subn x y) := fieldC_encXYN _ _ _ _
theorem shl (x y : Reg) : Statement (.shl x y) := fieldC_encXYN _ _ _ _
theorem sneReg (x y : Reg) : Statement (.sneReg x y) := fieldC_encXYN _ _ _ _
theorem drw (x y : Reg) (n : Nibble) : Statement (.drw x y n) := fieldC_encXYN _ _ _ _
theorem skp (x : Reg) : Statement (.skp x) := fieldC_encXNN _ _ _
theorem sknp (x : Reg) : Statement (.sknp x) := fieldC_encXNN _ _ _
theorem ldVxDt (x : Reg) : Statement (.ldVxDt x) := fieldC_encXNN _ _ _
theorem ldVxK (x : Reg) : Statement (.ldVxK x) := fieldC_encXNN _ _ _
theorem ldDtVx (x : Reg) : Statement (.ldDtVx x) := fieldC_encXNN _ _ _
theorem ldStVx (x : Reg) : Statement (.ldStVx x) := fieldC_encXNN _ _ _
theorem addIVx (x : Reg) : Statement (.addIVx x) := fieldC_encXNN _ _ _
theorem ldFVx (x : Reg) : Statement (.ldFVx x) := fieldC_encXNN _ _ _
theorem ldBVx (x : Reg) : Statement (.ldBVx x) := fieldC_encXNN _ _ _
theorem ldMemVx (x : Reg) : Statement (.ldMemVx x) := fieldC_encXNN _ _ _
theorem ldVxMem (x : Reg) : Statement (.ldVxMem x) := fieldC_encXNN _ _ _
theorem unrecognised (w : Word) : Statement (.unrecognised w) := by
  intro h
  have hc : (fieldC w).toNat ∈ [0x5, 0x8, 0x9, 0xE, 0xF] := by
    simp only [Instr.WellFormed, Instr.wellFormed, isUnrecognisedWord] at h
    change (match (fieldC w).toNat with | 0x5 => _ | 0x8 => _ | 0x9 => _ | 0xE => _ | 0xF => _ | _ => false) = true at h
    split at h <;> simp_all
  change fieldC w ∈ _
  simpa [← BitVec.toNat_inj] using hc

end Sys2Proof.Laws.ClassNibble
end

