-- ==== Sys2Proof/Tests/Slice0.lean ====
section
/-!
SUPPORT. Small tests: WellFormed's refusals, one word per constructor through the decoder and back, at most two single
steps per instruction, and for every statement with hypotheses a witness that meets them. The expected results are
spec/95_test_vectors.md's, whose row a test's comment names; decode words are written out from spec/opcode_table.json.
-/

open Sys2Proof Sys2Proof.Machine

namespace Sys2Proof.Tests

/-! ### Helpers -/

/-- The reset state with these registers. -/
def withRegs (regs : List (Reg × Byte)) : State := regs.foldl (fun s p => s.setReg p.1 p.2) State.reset

/-- The state one step later. -/
def stepped (s : State) : State :=
  match step s with
  | .next t => t
  | .fault _ => s
  | .refused _ => s

/-- The state after this word is placed at PC and stepped. -/
def ran (s : State) (w : Nat) : State := stepped (s.withFetchWord 16 w)

/-- A valid stack of one entry. -/
def oneDeep (ret : Word) : State := { State.reset with stack := State.reset.stack.set 0 ret, sp := 1 }

/-- A full stack. -/
def full : State := { State.reset with sp := 100 }

/-- A state whose wait a key ends, its destination register x. -/
def waiting (x : Reg) : State := { State.reset with status := .waitKey x }

/-- A state after a stack underflow. -/
def faulted : State := State.reset.raise .stackUnderflow 0x00EE#16

/-- The reset state with the timers enabled and at these values. -/
def ticking (dt st : Byte) : State :=
  { State.reset with dt := dt, st := st, config := { defaultConfig with timerTickEnabled := true } }

/-! ### WellFormed refuses -/

theorem test_illformed_sys_cls : ¬ (Instr.sys 0x0E0#12).WellFormed := by decide
theorem test_illformed_sys_ret : ¬ (Instr.sys 0x0EE#12).WellFormed := by decide
theorem test_illformed_unrecognised_5 : ¬ (Instr.unrecognised 0x5120#16).WellFormed := by decide
theorem test_illformed_unrecognised_8 : ¬ (Instr.unrecognised 0x8ABE#16).WellFormed := by decide
theorem test_illformed_unrecognised_9 : ¬ (Instr.unrecognised 0x9120#16).WellFormed := by decide
theorem test_illformed_unrecognised_E : ¬ (Instr.unrecognised 0xE19E#16).WellFormed := by decide
theorem test_illformed_unrecognised_F : ¬ (Instr.unrecognised 0xF10A#16).WellFormed := by decide
theorem test_illformed_unrecognised_0 : ¬ (Instr.unrecognised 0x00E0#16).WellFormed := by decide
theorem test_wellformed_sys : (Instr.sys 0x0EF#12).WellFormed := by decide
theorem test_wellformed_unrecognised_5 : (Instr.unrecognised 0x5121#16).WellFormed := by decide
theorem test_wellformed_unrecognised_8 : (Instr.unrecognised 0x8008#16).WellFormed := by decide
theorem test_wellformed_unrecognised_9 : (Instr.unrecognised 0x912F#16).WellFormed := by decide
theorem test_wellformed_unrecognised_E : (Instr.unrecognised 0xE39F#16).WellFormed := by decide
theorem test_wellformed_unrecognised_F : (Instr.unrecognised 0xF305#16).WellFormed := by decide
theorem test_decode_truncated : decodeBytes [0x12#8] = .error .truncated := by decide

/-! ### One word per constructor, through the decoder and back -/

theorem test_decode_cls : decodeTableWord 16 0x00E0 = some (.cls) ∧ encode (.cls) = 0x00E0#16 := by decide
theorem test_decode_ret : decodeTableWord 16 0x00EE = some (.ret) ∧ encode (.ret) = 0x00EE#16 := by decide
theorem test_decode_sys : decodeTableWord 16 0x00EF = some (.sys 0x0EF#12) ∧ encode (.sys 0x0EF#12) = 0x00EF#16 := by decide
theorem test_decode_jp : decodeTableWord 16 0x1ABC = some (.jp 0xABC#12) ∧ encode (.jp 0xABC#12) = 0x1ABC#16 := by decide
theorem test_decode_call : decodeTableWord 16 0x2300 = some (.call 0x300#12) ∧ encode (.call 0x300#12) = 0x2300#16 := by decide
theorem test_decode_seImm : decodeTableWord 16 0x3310 = some (.seImm 0x3#4 0x10#8) ∧ encode (.seImm 0x3#4 0x10#8) = 0x3310#16 := by decide
theorem test_decode_sneImm : decodeTableWord 16 0x4310 = some (.sneImm 0x3#4 0x10#8) ∧ encode (.sneImm 0x3#4 0x10#8) = 0x4310#16 := by decide
theorem test_decode_seReg : decodeTableWord 16 0x5120 = some (.seReg 0x1#4 0x2#4) ∧ encode (.seReg 0x1#4 0x2#4) = 0x5120#16 := by decide
theorem test_decode_ldImm : decodeTableWord 16 0x6A2B = some (.ldImm 0xA#4 0x2B#8) ∧ encode (.ldImm 0xA#4 0x2B#8) = 0x6A2B#16 := by decide
theorem test_decode_addImm : decodeTableWord 16 0x7F01 = some (.addImm 0xF#4 0x01#8) ∧ encode (.addImm 0xF#4 0x01#8) = 0x7F01#16 := by decide
theorem test_decode_ldReg : decodeTableWord 16 0x80F0 = some (.ldReg 0x0#4 0xF#4) ∧ encode (.ldReg 0x0#4 0xF#4) = 0x80F0#16 := by decide
theorem test_decode_orReg : decodeTableWord 16 0x8121 = some (.orReg 0x1#4 0x2#4) ∧ encode (.orReg 0x1#4 0x2#4) = 0x8121#16 := by decide
theorem test_decode_andReg : decodeTableWord 16 0x8122 = some (.andReg 0x1#4 0x2#4) ∧ encode (.andReg 0x1#4 0x2#4) = 0x8122#16 := by decide
theorem test_decode_xorReg : decodeTableWord 16 0x8123 = some (.xorReg 0x1#4 0x2#4) ∧ encode (.xorReg 0x1#4 0x2#4) = 0x8123#16 := by decide
theorem test_decode_addReg : decodeTableWord 16 0x8AB4 = some (.addReg 0xA#4 0xB#4) ∧ encode (.addReg 0xA#4 0xB#4) = 0x8AB4#16 := by decide
theorem test_decode_sub : decodeTableWord 16 0x8AB5 = some (.sub 0xA#4 0xB#4) ∧ encode (.sub 0xA#4 0xB#4) = 0x8AB5#16 := by decide
theorem test_decode_shr : decodeTableWord 16 0x8AB6 = some (.shr 0xA#4 0xB#4) ∧ encode (.shr 0xA#4 0xB#4) = 0x8AB6#16 := by decide
theorem test_decode_subn : decodeTableWord 16 0x8AB7 = some (.subn 0xA#4 0xB#4) ∧ encode (.subn 0xA#4 0xB#4) = 0x8AB7#16 := by decide
theorem test_decode_shl : decodeTableWord 16 0x8ABE = some (.shl 0xA#4 0xB#4) ∧ encode (.shl 0xA#4 0xB#4) = 0x8ABE#16 := by decide
theorem test_decode_sneReg : decodeTableWord 16 0x9120 = some (.sneReg 0x1#4 0x2#4) ∧ encode (.sneReg 0x1#4 0x2#4) = 0x9120#16 := by decide
theorem test_decode_ldI : decodeTableWord 16 0xA123 = some (.ldI 0x123#12) ∧ encode (.ldI 0x123#12) = 0xA123#16 := by decide
theorem test_decode_jpV0 : decodeTableWord 16 0xBFFF = some (.jpV0 0xFFF#12) ∧ encode (.jpV0 0xFFF#12) = 0xBFFF#16 := by decide
theorem test_decode_rnd : decodeTableWord 16 0xC30F = some (.rnd 0x3#4 0x0F#8) ∧ encode (.rnd 0x3#4 0x0F#8) = 0xC30F#16 := by decide
theorem test_decode_drw : decodeTableWord 16 0xD125 = some (.drw 0x1#4 0x2#4 0x5#4) ∧ encode (.drw 0x1#4 0x2#4 0x5#4) = 0xD125#16 := by decide
theorem test_decode_skp : decodeTableWord 16 0xE19E = some (.skp 0x1#4) ∧ encode (.skp 0x1#4) = 0xE19E#16 := by decide
theorem test_decode_sknp : decodeTableWord 16 0xE1A1 = some (.sknp 0x1#4) ∧ encode (.sknp 0x1#4) = 0xE1A1#16 := by decide
theorem test_decode_ldVxDt : decodeTableWord 16 0xF207 = some (.ldVxDt 0x2#4) ∧ encode (.ldVxDt 0x2#4) = 0xF207#16 := by decide
theorem test_decode_ldVxK : decodeTableWord 16 0xF30A = some (.ldVxK 0x3#4) ∧ encode (.ldVxK 0x3#4) = 0xF30A#16 := by decide
theorem test_decode_ldDtVx : decodeTableWord 16 0xF415 = some (.ldDtVx 0x4#4) ∧ encode (.ldDtVx 0x4#4) = 0xF415#16 := by decide
theorem test_decode_ldStVx : decodeTableWord 16 0xF418 = some (.ldStVx 0x4#4) ∧ encode (.ldStVx 0x4#4) = 0xF418#16 := by decide
theorem test_decode_addIVx : decodeTableWord 16 0xF21E = some (.addIVx 0x2#4) ∧ encode (.addIVx 0x2#4) = 0xF21E#16 := by decide
theorem test_decode_ldFVx : decodeTableWord 16 0xF029 = some (.ldFVx 0x0#4) ∧ encode (.ldFVx 0x0#4) = 0xF029#16 := by decide
theorem test_decode_ldBVx : decodeTableWord 16 0xFA33 = some (.ldBVx 0xA#4) ∧ encode (.ldBVx 0xA#4) = 0xFA33#16 := by decide
theorem test_decode_ldMemVx : decodeTableWord 16 0xF255 = some (.ldMemVx 0x2#4) ∧ encode (.ldMemVx 0x2#4) = 0xF255#16 := by decide
theorem test_decode_ldVxMem : decodeTableWord 16 0xF265 = some (.ldVxMem 0x2#4) ∧ encode (.ldVxMem 0x2#4) = 0xF265#16 := by decide
theorem test_decode_unrecognised : decodeTableWord 16 0xFFFF = some (.unrecognised 0xFFFF#16) ∧ encode (.unrecognised 0xFFFF#16) = 0xFFFF#16 := by decide

/-! ### Fetch and decode -/

/-- DE13, DE14: a fetch at 0xFFF wraps to the first font byte, the next at 0x1001 reads MEM[0x001..0x002]. -/
def wrapped : State := stepped ((State.reset.memWrite 0xFFF 0x6A#8).jump 0xFFF#16)
theorem test_fetch_wraps : wrapped.reg 0xA#4 = 0xF0#8 ∧ wrapped.pc = 0x1001#16 := by decide
theorem test_fetch_beyond : (stepped wrapped).pc = 0x1003#16 := by decide
/-- DE15. -/
theorem test_pc_wraps : (ran (State.reset.jump 0xFFFE#16) 0x0000).pc = 0x0000#16 := by decide
/-- DE16. -/
theorem test_odd_pc : (ran (State.reset.jump 0x201#16) 0x6123).pc = 0x203#16 := by decide
/-- DE8. -/
theorem test_unrecognised : (ran (withRegs [(0, 3), (1, 5), (0xF, 0x55)]) 0x8018).v =
    (withRegs [(0, 3), (1, 5), (0xF, 0x55)]).v := by decide
/-- DE10. -/
theorem test_unrecognised_F : (ran (withRegs [(3, 9)]) 0xF305).dt = 0x00#8 := by decide

/-! ### Control flow -/

/-- CF26. -/
theorem test_sys : (ran State.reset 0x0123).pc = 0x202#16 := by decide
/-- CF1. -/
theorem test_jp : (ran State.reset 0x1ABC).pc = 0xABC#16 := by decide
/-- CF4. -/
theorem test_call : (ran State.reset 0x2300).pc = 0x300#16 ∧ (ran State.reset 0x2300).sp = 1 ∧
    (ran State.reset 0x2300).stackAt 0 = 0x202#16 := by decide
/-- CF7. -/
theorem test_call_full : (ran full 0x2300).status = .fault .stackOverflow 0x200#16 0x2300#16 := by decide
/-- CF9. -/
theorem test_ret : (ran (oneDeep 0x202#16) 0x00EE).pc = 0x202#16 ∧ (ran (oneDeep 0x202#16) 0x00EE).sp = 0 := by
  decide
/-- CF10. -/
theorem test_ret_empty : (ran State.reset 0x00EE).status = .fault .stackUnderflow 0x200#16 0x00EE#16 := by decide
/-- CF12. -/
theorem test_jpV0 : (ran (withRegs [(0, 0xFF)]) 0xBFFF).pc = 0x10FE#16 := by decide
/-- CF14, CF15. -/
theorem test_seImm : (ran (withRegs [(3, 0x10)]) 0x3310).pc = 0x204#16 ∧
    (ran (withRegs [(3, 0x10)]) 0x3311).pc = 0x202#16 := by decide
/-- CF25. -/
theorem test_seImm_wraps : (ran (State.reset.jump 0xFFFC#16) 0x3000).pc = 0x0000#16 := by decide
/-- CF16, CF17. -/
theorem test_sneImm : (ran (withRegs [(3, 0x10)]) 0x4311).pc = 0x204#16 ∧
    (ran (withRegs [(3, 0x10)]) 0x4310).pc = 0x202#16 := by decide
/-- CF18, CF19. -/
theorem test_seReg : (ran (withRegs [(1, 7), (2, 7)]) 0x5120).pc = 0x204#16 ∧
    (ran (withRegs [(1, 7), (2, 8)]) 0x5120).pc = 0x202#16 := by decide
/-- CF21, CF22. -/
theorem test_sneReg : (ran (withRegs [(1, 7), (2, 8)]) 0x9120).pc = 0x204#16 ∧
    (ran (withRegs [(1, 7), (2, 7)]) 0x9120).pc = 0x202#16 := by decide

/-! ### Register loads, ALU, random -/

/-- LI1. -/
theorem test_ldImm : (ran State.reset 0x6A2B).reg 0xA#4 = 0x2B#8 := by decide
/-- LI3. -/
theorem test_addImm : (ran (withRegs [(0, 0xFF), (0xF, 0x55)]) 0x7001).reg 0#4 = 0x00#8 ∧
    (ran (withRegs [(0, 0xFF), (0xF, 0x55)]) 0x7001).reg 0xF#4 = 0x55#8 := by decide
/-- LG1. -/
theorem test_ldReg : (ran (withRegs [(1, 0x33)]) 0x8010).reg 0#4 = 0x33#8 := by decide
/-- LG2. -/
theorem test_orReg : (ran (withRegs [(0, 0xF0), (1, 0x0F), (0xF, 0x55)]) 0x8011).reg 0#4 = 0xFF#8 ∧
    (ran (withRegs [(0, 0xF0), (1, 0x0F), (0xF, 0x55)]) 0x8011).reg 0xF#4 = 0x55#8 := by decide
/-- LG3. -/
theorem test_andReg : (ran (withRegs [(0, 0xF0), (1, 0x3C)]) 0x8012).reg 0#4 = 0x30#8 := by decide
/-- LG4. -/
theorem test_xorReg : (ran (withRegs [(0, 0xFF), (1, 0x0F)]) 0x8013).reg 0#4 = 0xF0#8 := by decide
/-- Class 8 table, FF and 01. -/
theorem test_addReg : (ran (withRegs [(0, 0xFF), (1, 1)]) 0x8014).reg 0#4 = 0x00#8 ∧
    (ran (withRegs [(0, 0xFF), (1, 1)]) 0x8014).reg 0xF#4 = 0x01#8 := by decide
/-- VF as an operand, 10 and 01. -/
theorem test_addReg_flag : (ran (withRegs [(0xF, 0x10), (1, 1)]) 0x8F14).reg 0xF#4 = 0x11#8 := by decide
/-- Class 8 table, 05 and 07. -/
theorem test_sub : (ran (withRegs [(0, 5), (1, 7)]) 0x8015).reg 0#4 = 0xFE#8 ∧
    (ran (withRegs [(0, 5), (1, 7)]) 0x8015).reg 0xF#4 = 0x00#8 := by decide
/-- VF as an operand, 01 and 10; and 10 and 01 as Y = F. -/
theorem test_sub_flag : (ran (withRegs [(0xF, 1), (1, 0x10)]) 0x8F15).reg 0xF#4 = 0xF0#8 ∧
    (ran (withRegs [(0, 0x10), (0xF, 1)]) 0x80F5).reg 0#4 = 0x0F#8 := by decide
/-- The note under the class 8 table: V1 is not read. -/
theorem test_shr : (ran (withRegs [(0, 0x81), (1, 0xFF)]) 0x8016).reg 0#4 = 0x40#8 ∧
    (ran (withRegs [(0, 0x81), (1, 0xFF)]) 0x8016).reg 0xF#4 = 0x01#8 := by decide
/-- VF as an operand, 81. -/
theorem test_shr_flag : (ran (withRegs [(0xF, 0x81)]) 0x8F16).reg 0xF#4 = 0x00#8 := by decide
/-- Class 8 table, 05 and 07. -/
theorem test_subn : (ran (withRegs [(0, 5), (1, 7)]) 0x8017).reg 0#4 = 0x02#8 ∧
    (ran (withRegs [(0, 5), (1, 7)]) 0x8017).reg 0xF#4 = 0x01#8 := by decide
/-- VF as an operand, 01 and 10; and 05 and 05 as Y = F. -/
theorem test_subn_flag : (ran (withRegs [(0xF, 1), (1, 0x10)]) 0x8F17).reg 0xF#4 = 0x0F#8 ∧
    (ran (withRegs [(0, 5), (0xF, 5)]) 0x80F7).reg 0#4 = 0xFB#8 := by decide
/-- Class 8 table, 81 and 00. -/
theorem test_shl : (ran (withRegs [(0, 0x81)]) 0x801E).reg 0#4 = 0x02#8 ∧
    (ran (withRegs [(0, 0x81)]) 0x801E).reg 0xF#4 = 0x80#8 := by decide
/-- VF as an operand, 81. -/
theorem test_shl_flag : (ran (withRegs [(0xF, 0x81)]) 0x8F1E).reg 0xF#4 = 0x00#8 := by decide
/-- RN1: where the draw is A7. -/
theorem test_rnd (h : Config.freeByte 0 = 0xA7#8) : (ran State.reset 0xC30F).reg 3#4 = 0x07#8 := by
  change Config.freeByte 0 &&& 0x0F#8 = 0x07#8
  rw [h]
  decide
/-- One draw is taken. -/
theorem test_rnd_draws : (ran State.reset 0xC300).draws = 1 := by decide

/-! ### Display -/

/-- DS5's start: cell (1, 0) is on, the sprite is one row of two bits. -/
def collides : State := { (State.reset.memWrite 0x300 0xC0#8).setCell 1 0 true with i := 0x300#16 }
/-- DS1. -/
theorem test_cls : (ran (State.reset.setCell 63 31 true) 0x00E0).cell 63 31 = false := by decide
/-- DS2. -/
theorem test_drw_wraps :
    let t := ran { (withRegs [(0, 0x3F)]).memWrite 0x300 0xC0#8 with i := 0x300#16 } 0xD011
    t.cell 63 0 = true ∧ t.cell 0 0 = true ∧ t.cell 1 0 = false ∧ t.reg 0xF#4 = 0x00#8 := by decide
/-- DS5. -/
theorem test_drw_collides :
    let t := ran collides 0xD011
    t.cell 0 0 = true ∧ t.cell 1 0 = false ∧ t.reg 0xF#4 = 0x01#8 := by decide

/-! ### Keypad and timers -/

/-- KT1, KT2. -/
theorem test_skp : (ran ((withRegs [(1, 0xA)]).setKeys 0x0400#16) 0xE19E).pc = 0x204#16 ∧
    (ran (withRegs [(1, 0xA)]) 0xE19E).pc = 0x202#16 := by decide
/-- KT5. -/
theorem test_skp_no_key : (ran ((withRegs [(1, 0x10)]).setKeys 0xFFFF#16) 0xE19E).pc = 0x202#16 := by decide
/-- KT3, KT4. -/
theorem test_sknp : (ran (withRegs [(1, 0xA)]) 0xE1A1).pc = 0x204#16 ∧
    (ran ((withRegs [(1, 0xA)]).setKeys 0x0400#16) 0xE1A1).pc = 0x202#16 := by decide
/-- KT6. -/
theorem test_sknp_no_key : (ran (withRegs [(1, 0xFF)]) 0xE1A1).pc = 0x204#16 := by decide
/-- KT7. -/
theorem test_ldVxDt : (ran (State.reset.setDt 0x3C#8) 0xF207).reg 2#4 = 0x3C#8 := by decide
/-- KT8. -/
theorem test_ldDtVx : (ran (withRegs [(4, 0x10)]) 0xF415).dt = 0x10#8 := by decide
/-- KT9. -/
theorem test_ldStVx : (ran (withRegs [(4, 0x10)]) 0xF418).st = 0x10#8 := by decide
/-- KT10. -/
theorem test_ldVxK : (ran State.reset 0xF30A).status = .waitKey 3#4 ∧ (ran State.reset 0xF30A).pc = 0x200#16 := by
  decide
/-- KT15. -/
theorem test_keyPress : ((ran State.reset 0xFF0A).keyPress 2#4).reg 0xF#4 = 0x02#8 ∧
    ((ran State.reset 0xFF0A).keyPress 2#4).pc = 0x202#16 := by decide
/-- KT16. -/
theorem test_setKeys : (State.reset.setKeys 0x8001#16).key.get 0 = true ∧
    (State.reset.setKeys 0x8001#16).key.get 15 = true ∧ (State.reset.setKeys 0x8001#16).key.get 1 = false := by decide
/-- KT18. -/
theorem test_timerTick : (ticking 2 0).timerTick.dt = 0x01#8 ∧ (ticking 2 0).timerTick.st = 0x00#8 := by decide
/-- KT20. -/
theorem test_timerTick_fault : ((ticking 5 5).raise .stackUnderflow 0x00EE#16).timerTick.dt = 0x05#8 := by decide

/-! ### Index register and memory transfer -/

/-- IM1. -/
theorem test_ldI : (ran State.reset 0xA123).i = 0x123#16 := by decide
/-- IM3. -/
theorem test_addIVx : (ran { withRegs [(2, 0x20), (0xF, 0x55)] with i := 0xFF0#16 } 0xF21E).i = 0x010#16 ∧
    (ran { withRegs [(2, 0x20), (0xF, 0x55)] with i := 0xFF0#16 } 0xF21E).reg 0xF#4 = 0x55#8 := by decide
/-- IM7, IM9. -/
theorem test_ldFVx : (ran (withRegs [(0, 0x0F)]) 0xF029).i = 0x04B#16 ∧
    (ran (withRegs [(0, 0xFF)]) 0xF029).i = 0x4FB#16 := by decide
/-- IM14. -/
theorem test_ldBVx :
    let t := ran { withRegs [(0, 0x7B)] with i := 0xFFE#16 } 0xF033
    t.memRead 0xFFE = 1#8 ∧ t.memRead 0xFFF = 2#8 ∧ t.memRead 0x000 = 3#8 ∧ t.i = 0xFFE#16 := by decide
/-- IM18. -/
theorem test_ldMemVx :
    let t := ran { withRegs [(0, 0x11), (1, 0x22)] with i := 0xFFF#16 } 0xF155
    t.memRead 0xFFF = 0x11#8 ∧ t.memRead 0x000 = 0x22#8 := by decide
/-- IM15. -/
theorem test_ldMemVx_stops :
    let t := ran { withRegs [(0, 1), (1, 2), (2, 3), (3, 4)] with i := 0x300#16 } 0xF255
    t.memRead 0x302 = 3#8 ∧ t.memRead 0x303 = 0#8 ∧ t.i = 0x300#16 := by decide
/-- IM21, the font bytes of glyph 0. -/
theorem test_ldVxMem :
    let t := ran (withRegs [(5, 0x77)]) 0xF465
    t.reg 0#4 = 0xF0#8 ∧ t.reg 4#4 = 0xF0#8 ∧ t.reg 1#4 = 0x90#8 ∧ t.reg 5#4 = 0x77#8 := by decide

/-! ### Faults -/

/-- FT1. -/
theorem test_fault_stays : step faulted = .next faulted := by rfl

/-! ### Witnesses: for each statement with hypotheses, states and operands that meet them, clause by clause -/

theorem reset_inv : State.reset.Inv := ⟨by decide, by decide, by decide, by decide, by decide⟩

/-- A memory with one listed byte at each end. -/
def ends : Memory := [(0x000, 0x01#8), (0xFFF, 0x01#8)]

theorem witness_DecodeOfEncode : (Instr.sys 0x0EF#12).WellFormed ∧ (Instr.drw 0xF#4 0xF#4 0xF#4).WellFormed := by decide
theorem witness_UnrecognisedWordsAreNoOps :
    (fieldC 0x8008#16 = 0x8#4 ∧ fieldN 0x8008#16 ∈ [0x8#4, 0x9#4, 0xA#4, 0xB#4, 0xC#4, 0xD#4, 0xF#4]) ∧
    (fieldC 0xE39F#16 = 0xE#4 ∧ fieldNN 0xE39F#16 ∉ [0x9E#8, 0xA1#8]) ∧
    (fieldC 0xFFFF#16 = 0xF#4 ∧
      fieldNN 0xFFFF#16 ∉ [0x07#8, 0x0A#8, 0x15#8, 0x18#8, 0x1E#8, 0x29#8, 0x33#8, 0x55#8, 0x65#8]) ∧
    (fieldC 0x5001#16 = 0x5#4 ∧ fieldN 0x5001#16 ≠ 0x0#4) ∧
    (fieldC 0x900F#16 = 0x9#4 ∧ fieldN 0x900F#16 ≠ 0x0#4) := by decide
theorem witness_StepRuns_run : State.reset.status = .run ∧
    decodeBytes [State.reset.memRead State.reset.pc.toNat, State.reset.memRead (State.reset.pc + 1#16).toNat] =
      .ok (.sys 0x000#12, []) := by decide
theorem witness_StepRuns_wait : (waiting 0xF#4).status = .waitKey 0xF#4 := by decide
theorem witness_StepRuns_fault : faulted.status = .fault .stackUnderflow 0x200#16 0x00EE#16 := by decide
theorem witness_StepKeepsInvariant : State.reset.Inv ∧ step State.reset = .next (State.reset.jump 0x202#16) :=
  ⟨reset_inv, rfl⟩
theorem reset_reachable : Reachable State.reset := .created defaultConfig [] _ (by decide) rfl
theorem witness_ReachableStates : Reachable (State.reset.setKeys 0x8001#16) :=
  .acted _ _ (.setKeys 0x8001#16) reset_reachable rfl
theorem witness_CanonicalMemoryIsUnique : Memory.wf defaultFont ends ∧
    ∀ a, a < 4096 → Memory.read defaultFont ends a = Memory.read defaultFont ends a := ⟨by decide, fun _ _ => rfl⟩

theorem witness_Writers_mem : ∃ t, exec (.ldBVx 1#4) (withRegs [(1, 7)]) = .next t ∧
    ¬ Part.Same (withRegs [(1, 7)]) t .mem := ⟨_, rfl, fun h => absurd (h 0) (by decide)⟩
theorem witness_Writers_mem' : ∃ t, exec (.ldMemVx 0#4) (withRegs [(0, 7)]) = .next t ∧
    ¬ Part.Same (withRegs [(0, 7)]) t .mem := ⟨_, rfl, fun h => absurd (h 0) (by decide)⟩
theorem witness_Writers_i : ∃ t, exec (.ldI 0xFFF#12) State.reset = .next t ∧ t.i ≠ State.reset.i :=
  ⟨_, rfl, by decide⟩
theorem witness_Writers_stack : ∃ t, exec (.call 0x300#12) State.reset = .next t ∧ ¬ Part.Same State.reset t .stack :=
  ⟨_, rfl, fun h => absurd h.2 (by decide)⟩
theorem witness_Writers_dt : ∃ t, exec (.ldDtVx 4#4) (withRegs [(4, 1)]) = .next t ∧ t.dt ≠ (withRegs [(4, 1)]).dt :=
  ⟨_, rfl, by decide⟩
theorem witness_Writers_st : ∃ t, exec (.ldStVx 4#4) (withRegs [(4, 1)]) = .next t ∧ t.st ≠ (withRegs [(4, 1)]).st :=
  ⟨_, rfl, by decide⟩
theorem witness_Writers_disp : ∃ t, exec (.drw 0#4 1#4 1#4) collides = .next t ∧ t.disp ≠ collides.disp :=
  ⟨_, rfl, fun h => absurd (congrArg (fun d => (d.get 0).get 0) h) (by decide)⟩
theorem witness_Writers_status : ∃ t, exec (.ldVxK 3#4) State.reset = .next t ∧ t.status ≠ State.reset.status :=
  ⟨_, rfl, by decide⟩
theorem witness_Writers_draws : ∃ t, exec (.rnd 3#4 0x0F#8) State.reset = .next t ∧ t.draws ≠ State.reset.draws :=
  ⟨_, rfl, by decide⟩
theorem witness_RegisterWriters_flag : ∃ t, exec (.addReg 0#4 1#4) (withRegs [(0, 0xFF), (1, 1)]) = .next t ∧
    t.reg 0xF#4 ≠ (withRegs [(0, 0xFF), (1, 1)]).reg 0xF#4 := ⟨_, rfl, by decide⟩
theorem witness_RegisterWriters_load : ∃ t, exec (.ldVxMem 4#4) State.reset = .next t ∧
    t.reg 4#4 ≠ State.reset.reg 4#4 := ⟨_, rfl, by decide⟩
theorem witness_PcMovesByTwo : ∃ t, exec (.seReg 1#4 1#4) State.reset = .next t ∧ t.pc = State.reset.pc + 4#16 :=
  ⟨_, rfl, by decide⟩
theorem witness_OnlyStackFaults_ret : State.reset.status = .run ∧ ∃ t, exec .ret State.reset = .next t ∧ t.Faulted :=
  ⟨rfl, _, rfl, _, _, _, rfl⟩
theorem witness_OnlyStackFaults_call : full.status = .run ∧ ∃ t, exec (.call 0x300#12) full = .next t ∧ t.Faulted :=
  ⟨rfl, _, rfl, _, _, _, rfl⟩
theorem witness_TimerAndKeyReaders : (∃ t, exec .cls State.reset = .next t) ∧
    (∀ x, Instr.cls ≠ .ldVxDt x) ∧ ∀ x, Instr.cls ≠ .skp x ∧ Instr.cls ≠ .sknp x :=
  ⟨⟨_, rfl⟩, by decide, by decide⟩
theorem witness_FreeStackEntries : SameButFreeStack State.reset
    { State.reset with stack := State.reset.stack.set 0 0x0202#16 } ∧
    ∃ t, exec (.call 0x300#12) State.reset = .next t :=
  ⟨⟨rfl, by decide, fun k h => absurd h (Nat.not_lt_zero k)⟩, _, rfl⟩
theorem witness_SysIsNoOp : (0x0EF#12 : Addr12) ≠ 0x0E0#12 ∧ (0x0EF#12 : Addr12) ≠ 0x0EE#12 := by decide
theorem witness_ReturnPopsOrFaults : State.reset.sp = 0 ∧ (oneDeep 0x202#16).sp ≠ 0 := by decide
theorem witness_JumpSetsPc : (State.reset.jump 0xFFF#16).pc.toNat = (0xFFF#12 : Addr12).toNat := by decide
theorem witness_CallPushes_full : full.sp = full.config.stackCapacity := by decide
/-- One entry below the capacity. -/
theorem witness_CallPushes_last : ({ State.reset with sp := 99 } : State).sp ≠ 100 ∧
    ({ State.reset with sp := 99 } : State).Inv := ⟨by decide, by decide, by decide, by decide, by decide, by decide⟩
theorem witness_CallThenReturn : ({ State.reset with sp := 99 } : State).Inv ∧
    ({ State.reset with sp := 99 } : State).sp < State.reset.config.stackCapacity ∧
    ∃ t, exec (.call 0x300#12) { State.reset with sp := 99 } = .next t ∧ t.stack = t.stack ∧ t.sp = t.sp :=
  ⟨witness_CallPushes_last.2, by decide, _, rfl, rfl, rfl⟩
theorem witness_flag_operand : (0xE#4 : Reg) ≠ 0xF#4 ∧ State.reset.config.shlFlagNormalised = false := by decide
/-- ShiftLeft's flag on both sides of bit 7, and with the optional parameter. -/
theorem witness_ShiftLeft : (0x7F#8 : Byte).toNat < 128 ∧ ¬ (0x80#8 : Byte).toNat < 128 ∧
    ({ defaultConfig with shlFlagNormalised := true } : Config).shlFlagNormalised = true := by decide
theorem witness_SpriteSets : SpriteSets collides 0x00#8 0x00#8 0x1#4 1 0 ∧ collides.cell 1 0 = true :=
  ⟨⟨0, 1, by decide, by decide, by decide, by decide, by decide⟩, by decide⟩
theorem witness_SpriteSets_off : SpriteSets collides 0x00#8 0x00#8 0x1#4 0 0 ∧ collides.cell 0 0 = false :=
  ⟨⟨0, 0, by decide, by decide, by decide, by decide, by decide⟩, by decide⟩
/-- No row, so no cell: a height of 0. -/
theorem witness_SpriteSets_none : ∀ px py, ¬ SpriteSets collides 0x00#8 0x00#8 0x0#4 px py :=
  fun _ _ ⟨r, _, h, _⟩ => absurd h (Nat.not_lt_zero r)
theorem witness_DrawTwiceRestores : (0#4 : Reg) ≠ 0xF#4 ∧ (0xE#4 : Reg) ≠ 0xF#4 := by decide
theorem witness_SkipOnKey_key : ((withRegs [(1, 0x0F)]).reg 1#4).toNat = (15 : Fin 16).val := by decide
theorem witness_SkipOnKey_none : 0x10 ≤ ((withRegs [(1, 0x10)]).reg 1#4).toNat := by decide
theorem witness_KeyWaitThenKeyPress : (waiting 0xF#4).status = .waitKey 0xF#4 := by decide
theorem witness_OnlyKeyPress_enters : State.reset.status = .run ∧
    ∃ t, exec (.ldVxK 3#4) State.reset = .next t ∧ t.status = .waitKey 3#4 := ⟨rfl, _, rfl, rfl⟩
theorem witness_OnlyKeyPress_stays : (waiting 3#4).status = .waitKey 3#4 ∧
    (∀ k, HostAction.keyPress k ∉ [HostAction.step, .setKeys 0x8001#16, .timerTick]) ∧
    ∃ t, runActions (waiting 3#4) [.step, .setKeys 0x8001#16, .timerTick] = .next t :=
  ⟨rfl, by decide, _, rfl⟩
theorem witness_KeyPressNeedsTheWait : ∀ x, State.reset.status ≠ .waitKey x := fun _ h => nomatch h
theorem witness_FaultIsFinal : faulted.Faulted ∧
    ∃ t, runActions faulted [.step, .setKeys 0x8001#16, .keyPress 1#4, .timerTick] = .next t :=
  ⟨⟨_, _, _, rfl⟩, _, rfl⟩
theorem witness_TimerTick_enabled : (ticking 2 0).config.timerTickEnabled = true ∧ ¬ (ticking 2 0).Faulted :=
  ⟨rfl, fun ⟨_, _, _, h⟩ => nomatch h⟩
theorem witness_TimerTick_disabled : State.reset.config.timerTickEnabled = false := rfl
theorem witness_TimerTick_fault : ((ticking 2 0).raise .stackUnderflow 0x00EE#16).Faulted := ⟨_, _, _, rfl⟩
/-- RS3, RS4. -/
theorem witness_Create : (List.replicate 3584 0x00#8).length ≤ 3584 ∧ 3584 < (List.replicate 3585 0x00#8).length :=
  ⟨Nat.le_of_eq List.length_replicate, by rw [List.length_replicate]; omega⟩
theorem witness_DumpThenLoad : ∃ t, exec (.ldMemVx 0xF#4) State.reset = .next t ∧
    Part.Same t (t.jump 0x200#16) .mem ∧ (t.jump 0x200#16).i = t.i := ⟨_, rfl, fun _ => rfl, rfl⟩
theorem witness_StoredWordIsFetched : 1 ≤ (1#4 : Reg).toNat ∧ State.reset.status = .run := by decide
/-- CF3. -/
theorem witness_Idle : ((State.reset.jump 0x20A#16).withFetchWord 16 0x120A).Idle :=
  ⟨rfl, 0x20A#12, by decide, by decide⟩

end Sys2Proof.Tests
end

section
/-!
SUPPORT. The frame `OnlyChanges` of each shared operation, and the rules that join frames along a sequence of operations
and along a loop.
-/

namespace Sys2Proof.Machine

/-! ### Joining frames -/

theorem OnlyChanges.refl (parts : List Part) (regs : List Reg) (s : State) : OnlyChanges parts regs s s :=
  ⟨fun p _ => by cases p <;> simp [Part.Same], fun _ _ => rfl⟩

theorem Part.Same.trans {p : Part} {s t u : State} (h : p.Same s t) (h' : p.Same t u) : p.Same s u := by
  cases p <;> simp_all [Part.Same]

theorem OnlyChanges.trans {parts parts' : List Part} {regs regs' : List Reg} {s t u : State}
    (h : OnlyChanges parts regs s t) (h' : OnlyChanges parts' regs' t u) :
    OnlyChanges (parts ++ parts') (regs ++ regs') s u := by
  obtain ⟨hparts, hregs⟩ := h
  obtain ⟨hparts', hregs'⟩ := h'
  simp only [OnlyChanges, List.mem_append, not_or]
  exact ⟨fun p ⟨hp, hp'⟩ => (hparts p hp).trans (hparts' p hp'),
    fun r ⟨hr, hr'⟩ => (hregs' r hr').trans (hregs r hr)⟩

theorem OnlyChanges.mono {parts parts' : List Part} {regs regs' : List Reg} {s t : State}
    (h : OnlyChanges parts regs s t) (hparts : parts ⊆ parts') (hregs : regs ⊆ regs') :
    OnlyChanges parts' regs' s t :=
  ⟨fun p hp => h.1 p (mt (@hparts p) hp), fun r hr => h.2 r (mt (@hregs r) hr)⟩

/-- A loop keeps whatever each of its rounds keeps. -/
theorem OnlyChanges.foldl {α : Type} {parts : List Part} {regs : List Reg} {f : State → α → State} (as : List α)
    (s : State) (h : ∀ a ∈ as, ∀ s, OnlyChanges parts regs s (f s a)) :
    OnlyChanges parts regs s (as.foldl f s) := by
  induction as generalizing s with
  | nil => exact .refl parts regs s
  | cons a rest ih =>
    have hfirst := h a List.mem_cons_self s
    have hrest := ih (f s a) fun b hb => h b (List.mem_cons_of_mem a hb)
    exact (hfirst.trans hrest).mono (by simp) (by simp)

/-! ### One frame per operation -/

variable (s : State)

theorem State.setReg_frame (x : Reg) (b : Byte) : OnlyChanges [] [x] s (s.setReg x b) :=
  ⟨fun p _ => by cases p <;> simp [Part.Same], fun r hr => by simp_all⟩

theorem State.setFlag_frame (b : Byte) : OnlyChanges [] [regF] s (s.setFlag b) := s.setReg_frame regF b

theorem State.setI_frame (n : Nat) : OnlyChanges [.i] [] s (s.setI n) :=
  ⟨fun p hp => by cases p <;> simp_all [Part.Same], fun _ _ => rfl⟩

theorem State.setDt_frame (b : Byte) : OnlyChanges [.dt] [] s (s.setDt b) :=
  ⟨fun p hp => by cases p <;> simp_all [Part.Same], fun _ _ => rfl⟩

theorem State.setSt_frame (b : Byte) : OnlyChanges [.st] [] s (s.setSt b) :=
  ⟨fun p hp => by cases p <;> simp_all [Part.Same], fun _ _ => rfl⟩

theorem State.setStatus_frame (u : Status) : OnlyChanges [.status] [] s (s.setStatus u) :=
  ⟨fun p hp => by cases p <;> simp_all [Part.Same], fun _ _ => rfl⟩

theorem State.jump_frame (target : Word) : OnlyChanges [.pc] [] s (s.jump target) :=
  ⟨fun p hp => by cases p <;> simp_all [Part.Same], fun _ _ => rfl⟩

theorem State.advance_frame : OnlyChanges [.pc] [] s s.advance := s.jump_frame (s.pcPlus 2)

theorem State.skipIf_frame (c : Bool) : OnlyChanges [.pc] [] s (s.skipIf c) := by
  cases c
  · exact s.advance_frame
  · exact s.jump_frame (s.pcPlus 4)

theorem State.drawn_frame : OnlyChanges [.draws] [] s s.drawn :=
  ⟨fun p hp => by cases p <;> simp_all [Part.Same], fun _ _ => rfl⟩

theorem State.writeAndAdvance_frame (x : Reg) (b : Byte) : OnlyChanges [.pc] [x] s (s.writeAndAdvance x b) :=
  (s.setReg_frame x b).trans (State.advance_frame _)

/-- The flag instructions' two statements and the advance. -/
theorem State.setFlag_writeAndAdvance_frame (flag : Byte) (x : Reg) (b : Byte) :
    OnlyChanges [.pc] [regF, x] s ((s.setFlag flag).writeAndAdvance x b) :=
  (s.setFlag_frame flag).trans (State.writeAndAdvance_frame _ x b)

/-! ### The stack -/

/-- What a push or a pop changes when it does not fault. -/
theorem stack_pc_frame (stack : List Word) (sp : Nat) (pc : Word) :
    OnlyChanges [.stack, .pc] [] s { s with stack := stack, sp := sp, pc := pc } :=
  ⟨fun p hp => by cases p <;> simp_all [Part.Same, State.memRead], fun _ _ => rfl⟩

theorem State.popAndJump_frame (w : Word) : OnlyChanges [.stack, .pc, .status] [] s (s.popAndJump w) := by
  obtain ⟨-, hfault⟩ | ⟨-, hpop⟩ := s.popAndJump_cases w
  · rw [hfault]
    exact (s.setStatus_frame _).mono (by simp) (by simp)
  · rw [hpop]
    exact (stack_pc_frame s _ _ _).mono (by simp) (by simp)

theorem State.pushAndJump_frame (w v target : Word) :
    OnlyChanges [.stack, .pc, .status] [] s (s.pushAndJump w v target) := by
  obtain ⟨-, hfault⟩ | ⟨-, hpush⟩ := s.pushAndJump_cases w v target
  · rw [hfault]
    exact (s.setStatus_frame _).mono (by simp) (by simp)
  · rw [hpush]
    exact (stack_pc_frame s _ _ _).mono (by simp) (by simp)

/-! ### The display -/

theorem State.clearDisplay_frame : OnlyChanges [.disp] [] s s.clearDisplay :=
  ⟨fun p hp => by cases p <;> simp_all [Part.Same], fun _ _ => rfl⟩

theorem State.setCell_frame (px : Fin 64) (py : Fin 32) (b : Bool) : OnlyChanges [.disp] [] s (s.setCell px py b) :=
  ⟨fun p hp => by cases p <;> simp_all [Part.Same], fun _ _ => rfl⟩

theorem State.xorCell_frame (px : Fin 64) (py : Fin 32) : OnlyChanges [.disp] [regF] s (s.xorCell px py) := by
  unfold State.xorCell
  split
  · exact (s.setFlag_frame _).trans (State.setCell_frame _ px py _)
  · exact (s.setCell_frame px py _).mono (by simp) (by simp)

theorem State.drawColumn_frame (x0 y0 : Byte) (r : Nat) (b : Byte) (c : Nat) :
    OnlyChanges [.disp] [regF] s (State.drawColumn x0 y0 r b s c) := by
  unfold State.drawColumn
  split
  · exact s.xorCell_frame _ _
  · exact .refl _ _ s

theorem State.drawRow_frame (x0 y0 : Byte) (r : Nat) : OnlyChanges [.disp] [regF] s (State.drawRow x0 y0 s r) :=
  .foldl _ s fun c _ s => s.drawColumn_frame x0 y0 r _ c

theorem State.drawRows_frame (x0 y0 : Byte) (n : Nat) : OnlyChanges [.disp] [regF] s (State.drawRows x0 y0 n s) :=
  .foldl _ s fun r _ s => s.drawRow_frame x0 y0 r

/-! ### Memory transfer -/

theorem State.memWriteList_frame (n : Nat) (bytes : List Byte) : OnlyChanges [.mem] [] s (s.memWriteList n bytes) :=
  ⟨fun p hp => by cases p <;> simp_all [Part.Same], fun r _ => by simp⟩

theorem State.storeRegs_frame (n : Nat) : OnlyChanges [.mem] [] s (State.storeRegs n s) :=
  ⟨fun p hp => by cases p <;> simp_all [Part.Same], fun r _ => by simp⟩

theorem State.loadRegs_frame (n : Nat) :
    OnlyChanges [] ((List.range n).map regNumber) s (State.loadRegs n s) :=
  .foldl _ s fun k hk s =>
    (s.setReg_frame (regNumber k) _).mono (List.Subset.refl _)
      (by simpa only [List.cons_subset, List.nil_subset, and_true] using List.mem_map_of_mem hk)

end Sys2Proof.Machine
end

section
/-!
SUPPORT. The writer column of 10_state.md section 11 (R38) read by instruction, the proof that `exec` keeps to it, and
the column read back by part.
-/

namespace Sys2Proof

open Machine

/-- The parts of the state, V registers aside, that an instruction can change (R38). -/
def Instr.partsWritten : Instr → List Part
  | .cls => [.disp, .pc]
  | .ret | .call _ => [.stack, .pc, .status]
  | .ldI _ | .addIVx _ | .ldFVx _ => [.i, .pc]
  | .rnd _ _ => [.draws, .pc]
  | .drw _ _ _ => [.disp, .pc]
  | .ldVxK _ => [.status]
  | .ldDtVx _ => [.dt, .pc]
  | .ldStVx _ => [.st, .pc]
  | .ldBVx _ | .ldMemVx _ => [.mem, .pc]
  | .sys _ | .jp _ | .jpV0 _ | .unrecognised _ => [.pc]
  | .seImm _ _ | .sneImm _ _ | .seReg _ _ | .sneReg _ _ | .skp _ | .sknp _ => [.pc]
  | .ldImm _ _ | .addImm _ _ | .ldReg _ _ | .orReg _ _ | .andReg _ _ | .xorReg _ _ => [.pc]
  | .addReg _ _ | .sub _ _ | .shr _ _ | .subn _ _ | .shl _ _ => [.pc]
  | .ldVxDt _ | .ldVxMem _ => [.pc]

/-- The V registers that an instruction can change: its destinations, and VF where it has a flag (R22, R38). -/
def Instr.regsWritten : Instr → List Reg
  | .ldImm x _ | .addImm x _ | .ldReg x _ | .orReg x _ | .andReg x _ | .xorReg x _ | .rnd x _ | .ldVxDt x => [x]
  | .addReg x _ | .sub x _ | .shr x _ | .subn x _ | .shl x _ => [regF, x]
  | .drw _ _ _ => [regF]
  | .ldVxMem x => (List.range (x.toNat + 1)).map regNumber
  | .cls | .ret | .sys _ | .jp _ | .call _ | .jpV0 _ | .unrecognised _ => []
  | .seImm _ _ | .sneImm _ _ | .seReg _ _ | .sneReg _ _ | .skp _ | .sknp _ => []
  | .ldI _ | .addIVx _ | .ldFVx _ | .ldBVx _ | .ldMemVx _ | .ldVxK _ | .ldDtVx _ | .ldStVx _ => []

/-- Every instruction answers a next state and changes only what its row of the writer table lists. -/
theorem exec_next_frame (i : Instr) (s : State) :
    ∃ t, exec i s = .next t ∧ OnlyChanges i.partsWritten i.regsWritten s t := by
  cases i with
  | cls => exact ⟨_, rfl, s.clearDisplay_frame.trans (State.advance_frame _)⟩
  | ret => exact ⟨_, rfl, s.popAndJump_frame _⟩
  | call => exact ⟨_, rfl, s.pushAndJump_frame _ _ _⟩
  | jp | jpV0 => exact ⟨_, rfl, s.jump_frame _⟩
  | sys | unrecognised => exact ⟨_, rfl, s.advance_frame⟩
  | seImm | sneImm | seReg | sneReg | skp | sknp => exact ⟨_, rfl, s.skipIf_frame _⟩
  | ldImm | addImm | ldReg | orReg | andReg | xorReg | ldVxDt => exact ⟨_, rfl, s.writeAndAdvance_frame _ _⟩
  | addReg | sub | shr | subn | shl => exact ⟨_, rfl, s.setFlag_writeAndAdvance_frame _ _ _⟩
  | rnd => exact ⟨_, rfl, s.drawn_frame.trans (State.writeAndAdvance_frame _ _ _)⟩
  | drw =>
    exact ⟨_, rfl, (((s.setFlag_frame _).trans (State.drawRows_frame _ _ _ _)).trans (State.advance_frame _)).mono
      (by simp [Instr.partsWritten]) (by simp [Instr.regsWritten])⟩
  | ldI | addIVx | ldFVx => exact ⟨_, rfl, (s.setI_frame _).trans (State.advance_frame _)⟩
  | ldVxK => exact ⟨_, rfl, s.setStatus_frame _⟩
  | ldDtVx => exact ⟨_, rfl, (s.setDt_frame _).trans (State.advance_frame _)⟩
  | ldStVx => exact ⟨_, rfl, (s.setSt_frame _).trans (State.advance_frame _)⟩
  | ldBVx => exact ⟨_, rfl, (s.memWriteList_frame _ _).trans (State.advance_frame _)⟩
  | ldMemVx => exact ⟨_, rfl, (s.storeRegs_frame _).trans (State.advance_frame _)⟩
  | ldVxMem =>
    exact ⟨_, rfl, ((s.loadRegs_frame _).trans (State.advance_frame _)).mono
      (by simp [Instr.partsWritten]) (by simp [Instr.regsWritten])⟩

theorem exec_frame {i : Instr} {s t : State} (h : exec i s = .next t) :
    OnlyChanges i.partsWritten i.regsWritten s t := by
  obtain ⟨t', hnext, hframe⟩ := exec_next_frame i s
  obtain rfl : t' = t := by simpa [hnext] using h
  exact hframe

theorem mem_partsWritten_of_not_same {i : Instr} {s t : State} (h : exec i s = .next t) {p : Part}
    (hp : ¬ p.Same s t) : p ∈ i.partsWritten :=
  not_imp_comm.mp ((exec_frame h).1 p) hp

/-! ### The writers of each part -/

section
variable {i : Instr}

theorem Instr.writes_mem_iff : .mem ∈ i.partsWritten ↔ (∃ x, i = .ldBVx x) ∨ ∃ x, i = .ldMemVx x := by
  cases i <;> simp [Instr.partsWritten]

theorem Instr.writes_i_iff :
    .i ∈ i.partsWritten ↔ (∃ nnn, i = .ldI nnn) ∨ (∃ x, i = .addIVx x) ∨ ∃ x, i = .ldFVx x := by
  cases i <;> simp [Instr.partsWritten]

theorem Instr.writes_stack_iff : .stack ∈ i.partsWritten ↔ i = .ret ∨ ∃ nnn, i = .call nnn := by
  cases i <;> simp [Instr.partsWritten]

theorem Instr.writes_dt_iff : .dt ∈ i.partsWritten ↔ ∃ x, i = .ldDtVx x := by
  cases i <;> simp [Instr.partsWritten]

theorem Instr.writes_st_iff : .st ∈ i.partsWritten ↔ ∃ x, i = .ldStVx x := by
  cases i <;> simp [Instr.partsWritten]

theorem Instr.writes_disp_iff : .disp ∈ i.partsWritten ↔ i = .cls ∨ ∃ x y n, i = .drw x y n := by
  cases i <;> simp [Instr.partsWritten]

theorem Instr.writes_status_iff :
    .status ∈ i.partsWritten ↔ i = .ret ∨ (∃ nnn, i = .call nnn) ∨ ∃ x, i = .ldVxK x := by
  cases i <;> simp [Instr.partsWritten]

theorem Instr.writes_draws_iff : .draws ∈ i.partsWritten ↔ ∃ x nn, i = .rnd x nn := by
  cases i <;> simp [Instr.partsWritten]

theorem Instr.not_writes_key : .key ∉ i.partsWritten := by cases i <;> simp [Instr.partsWritten]

theorem Instr.not_writes_lastKey : .lastKey ∉ i.partsWritten := by cases i <;> simp [Instr.partsWritten]

theorem Instr.not_writes_config : .config ∉ i.partsWritten := by cases i <;> simp [Instr.partsWritten]

end

/-- Settles O12: a part that changed stands in the instruction's row of the writer table, and the table's rows that hold
the part are its writers. -/
theorem writersAreListed : Obligations.WritersAreListed := by
  unfold Obligations.WritersAreListed
  intro i s t h
  have written : ∀ {p : Part}, ¬ p.Same s t → p ∈ i.partsWritten := mem_partsWritten_of_not_same h
  obtain ⟨kept, -⟩ := exec_frame h
  exact ⟨fun hmem => Instr.writes_mem_iff.mp (written hmem),
    fun hi => Instr.writes_i_iff.mp (written hi),
    fun hstack => Instr.writes_stack_iff.mp (written hstack),
    fun hdt => Instr.writes_dt_iff.mp (written hdt),
    fun hst => Instr.writes_st_iff.mp (written hst),
    fun hdisp => Instr.writes_disp_iff.mp (written hdisp),
    fun hstatus => Instr.writes_status_iff.mp (written hstatus),
    fun hdraws => Instr.writes_draws_iff.mp (written hdraws),
    kept .key Instr.not_writes_key, kept .lastKey Instr.not_writes_lastKey, kept .config Instr.not_writes_config⟩

end Sys2Proof
end

section
/-!
SUPPORT. The control-flow instructions (40_control_flow.md): the words that decode to them, the shared operation each one
runs, and where that operation leaves PC.
-/

namespace Sys2Proof

open Machine

/-! ### Decoding (30_encoding.md R84) -/

theorem decode_jp (nnn : Addr12) : decode (encode (.jp nnn)) = .jp nnn := by
  simp [encode, decode_encNNN, decodeClass]

theorem decode_seImm (x : Reg) (nn : Byte) : decode (encode (.seImm x nn)) = .seImm x nn := by
  simp [encode, decode_encXNN, decodeClass]

theorem decode_sneImm (x : Reg) (nn : Byte) : decode (encode (.sneImm x nn)) = .sneImm x nn := by
  simp [encode, decode_encXNN, decodeClass]

/-! ### The operation of each instruction -/

theorem exec_ret (s : State) : exec .ret s = .next (s.popAndJump 0x00EE#16) := rfl

theorem exec_jp (nnn : Addr12) (s : State) : exec (.jp nnn) s = .next (s.jump (zextAddr nnn)) := rfl

theorem exec_seImm (x : Reg) (nn : Byte) (s : State) :
    exec (.seImm x nn) s = .next (s.skipIf (decide (s.reg x = nn))) := rfl

theorem exec_sneImm (x : Reg) (nn : Byte) (s : State) :
    exec (.sneImm x nn) s = .next (s.skipIf (decide (s.reg x ≠ nn))) := by
  rw [decide_not]
  rfl

/-! ### Where PC goes -/

@[simp] theorem Machine.zextAddr_toNat (nnn : Addr12) : (zextAddr nnn).toNat = nnn.toNat :=
  BitVec.toNat_setWidth_of_le (by decide)

theorem Machine.State.jump_self (s : State) : s.jump s.pc = s := rfl

/-- R100: a skip passes exactly one word of two bytes. -/
theorem Machine.State.skipIf_decide_pc (s : State) (c : Prop) [Decidable c] :
    (s.skipIf (decide c)).pc = if c then s.pc + 4#16 else s.pc + 2#16 := by simp

/-! ### The obligations -/

/-- Settles O19: the two ends of a pop, and the frame of each. -/
theorem returnPopsOrFaults : Obligations.ReturnPopsOrFaults := by
  unfold Obligations.ReturnPopsOrFaults
  refine ⟨by decide, fun s => ?_⟩
  rw [exec_ret]
  obtain ⟨hempty, hfault⟩ | ⟨hentry, hpop⟩ := s.popAndJump_cases 0x00EE#16
  · exact ⟨fun _ => ⟨_, congrArg _ hfault, rfl, s.setStatus_frame _⟩, fun hentry => absurd hempty hentry⟩
  · have hframe := (stack_pc_frame s s.stack (s.sp - 1) (s.stackAt (s.sp - 1))).mono
      (parts' := [.pc, .stack]) (by simp) (List.Subset.refl _)
    exact ⟨fun hempty => absurd hempty hentry, fun _ => ⟨_, congrArg _ hpop, rfl, rfl, rfl, hframe⟩⟩

/-- Settles O20: JP is a jump, and a jump to PC itself is the identity. -/
theorem jumpSetsPc : Obligations.JumpSetsPc := by
  unfold Obligations.JumpSetsPc
  refine fun nnn => ⟨decode_jp nnn, fun s => ⟨_, exec_jp nnn s, zextAddr_toNat nnn, s.jump_frame _, fun hself => ?_⟩⟩
  have htarget : zextAddr nnn = s.pc := BitVec.eq_of_toNat_eq (by rw [zextAddr_toNat, hself])
  rw [htarget, s.jump_self]

/-- Settles O23: both instructions are one conditional skip, on opposite conditions. -/
theorem skipOnImmediate : Obligations.SkipOnImmediate := by
  unfold Obligations.SkipOnImmediate
  exact fun x nn => ⟨decode_seImm x nn, decode_sneImm x nn, fun s =>
    ⟨⟨_, exec_seImm x nn s, s.skipIf_decide_pc _, s.skipIf_frame _⟩,
      ⟨_, exec_sneImm x nn s, s.skipIf_decide_pc _, s.skipIf_frame _⟩⟩⟩

end Sys2Proof
end

section
/-!
SUPPORT. The register instructions that write no flag (41_register_alu.md R131 to R136): the words that decode to them,
the byte each one writes, and the one operation they all run.
-/

namespace Sys2Proof

open Machine

/-! ### Decoding (30_encoding.md R84) -/

theorem decode_ldImm (x : Reg) (nn : Byte) : decode (encode (.ldImm x nn)) = .ldImm x nn := by
  simp [encode, decode_encXNN, decodeClass]

theorem decode_addImm (x : Reg) (nn : Byte) : decode (encode (.addImm x nn)) = .addImm x nn := by
  simp [encode, decode_encXNN, decodeClass]

/-- A word of class 8 is decided by its last nibble (R142). -/
theorem decode_class8 (x y : Reg) (n : Nibble) :
    decode (encXYN 0x8#4 x y n) = decodeClass8 (encXYN 0x8#4 x y n) := by
  simp [decode_encXYN, decodeClass]

theorem decode_ldReg (x y : Reg) : decode (encode (.ldReg x y)) = .ldReg x y := by
  simp [encode, decode_class8, decodeClass8]

theorem decode_orReg (x y : Reg) : decode (encode (.orReg x y)) = .orReg x y := by
  simp [encode, decode_class8, decodeClass8]

theorem decode_andReg (x y : Reg) : decode (encode (.andReg x y)) = .andReg x y := by
  simp [encode, decode_class8, decodeClass8]

theorem decode_xorReg (x y : Reg) : decode (encode (.xorReg x y)) = .xorReg x y := by
  simp [encode, decode_class8, decodeClass8]

/-! ### The byte each instruction writes -/

theorem exec_ldImm (x : Reg) (nn : Byte) (s : State) : exec (.ldImm x nn) s = .next (s.writeAndAdvance x nn) := rfl

theorem exec_addImm (x : Reg) (nn : Byte) (s : State) :
    exec (.addImm x nn) s = .next (s.writeAndAdvance x (s.reg x + nn)) := by
  rw [← add8_eq]
  rfl

theorem exec_ldReg (x y : Reg) (s : State) : exec (.ldReg x y) s = .next (s.writeAndAdvance x (s.reg y)) := rfl

theorem exec_orReg (x y : Reg) (s : State) :
    exec (.orReg x y) s = .next (s.writeAndAdvance x (s.reg x ||| s.reg y)) := rfl

theorem exec_andReg (x y : Reg) (s : State) :
    exec (.andReg x y) s = .next (s.writeAndAdvance x (s.reg x &&& s.reg y)) := rfl

theorem exec_xorReg (x y : Reg) (s : State) :
    exec (.xorReg x y) s = .next (s.writeAndAdvance x (s.reg x ^^^ s.reg y)) := rfl

/-! ### What the shared operation does -/

@[simp] theorem Machine.State.writeAndAdvance_reg (s : State) (x r : Reg) (b : Byte) :
    (s.writeAndAdvance x b).reg r = if r = x then b else s.reg r := s.reg_setReg x r b

@[simp] theorem Machine.State.writeAndAdvance_pc (s : State) (x : Reg) (b : Byte) :
    (s.writeAndAdvance x b).pc = s.pc + 2#16 := s.pcPlus_eq 2

/-- The destination takes the byte, PC goes to the next word, and nothing else changes: VF too is kept, unless it is the
destination. -/
theorem Machine.State.writeAndAdvance_effect (s : State) (x : Reg) (b : Byte) :
    (s.writeAndAdvance x b).reg x = b ∧ (s.writeAndAdvance x b).pc = s.pc + 2#16 ∧
      OnlyChanges [.pc] [x] s (s.writeAndAdvance x b) :=
  ⟨by simp, s.writeAndAdvance_pc x b, s.writeAndAdvance_frame x b⟩

/-! ### The obligations -/

/-- Settles O28: the four words differ in the last nibble and the four instructions in the byte they write. -/
theorem registerLogic : Obligations.RegisterLogic := by
  unfold Obligations.RegisterLogic
  exact fun x y => ⟨decode_ldReg x y, decode_orReg x y, decode_andReg x y, decode_xorReg x y, fun s =>
    ⟨⟨_, exec_ldReg x y s, s.writeAndAdvance_effect x _⟩,
      ⟨_, exec_orReg x y s, s.writeAndAdvance_effect x _⟩,
      ⟨_, exec_andReg x y s, s.writeAndAdvance_effect x _⟩,
      ⟨_, exec_xorReg x y s, s.writeAndAdvance_effect x _⟩⟩⟩

/-- Settles O26: LD Vx, nn writes its immediate. -/
theorem loadImmediate : Obligations.LoadImmediate := by
  unfold Obligations.LoadImmediate
  exact fun x nn => ⟨decode_ldImm x nn, fun s => ⟨_, exec_ldImm x nn s, s.writeAndAdvance_effect x nn⟩⟩

/-- Settles O27: the byte written is the sum of the two bytes, which a byte's addition takes modulo 256. -/
theorem addImmediate : Obligations.AddImmediate := by
  unfold Obligations.AddImmediate
  refine fun x nn => ⟨decode_addImm x nn, fun s => ⟨_, exec_addImm x nn s, ?_⟩⟩
  obtain ⟨hreg, hpc, hframe⟩ := s.writeAndAdvance_effect x (s.reg x + nn)
  have hsum : (s.reg x + nn).toNat = ((s.reg x).toNat + nn.toNat) % 256 := BitVec.toNat_add ..
  exact ⟨by rw [hreg, hsum], hpc, hframe⟩

end Sys2Proof
end

section
/-!
SUPPORT. The clearing of the display (42_display.md R171): the operation that CLS runs, and what that operation does.
-/

namespace Sys2Proof

open Machine

theorem exec_cls (s : State) : exec .cls s = .next s.clearDisplay.advance := rfl

@[simp] theorem Machine.State.cell_advance (s : State) (px : Fin 64) (py : Fin 32) :
    s.advance.cell px py = s.cell px py := rfl

/-- Every cell goes off, PC goes to the next word, and nothing else changes. -/
theorem Machine.State.clearDisplay_advance_effect (s : State) :
    (∀ px py, s.clearDisplay.advance.cell px py = false) ∧ s.clearDisplay.advance.pc = s.pc + 2#16 ∧
      OnlyChanges [.disp, .pc] [] s s.clearDisplay.advance := by
  refine ⟨fun px py => ?_, ?_, s.clearDisplay_frame.trans (State.advance_frame _)⟩
  · rw [State.cell_advance, State.cell_clearDisplay]
  · rw [State.advance_pc, State.pcPlus_eq, State.clearDisplay_pc]

/-- Settles O36: the two operations that CLS runs, one after the other. -/
theorem clearTurnsEveryCellOff : Obligations.ClearTurnsEveryCellOff := by
  unfold Obligations.ClearTurnsEveryCellOff
  exact ⟨by decide, fun s => ⟨_, exec_cls s, s.clearDisplay_advance_effect⟩⟩

end Sys2Proof
end

section
/-!
SUPPORT. The instructions that copy between a register and a timer (43_keypad_timers.md R193, R197, R198): the words that
decode to them, the operation each one runs, and what the two timer writes do.
-/

namespace Sys2Proof

open Machine

/-! ### Decoding (30_encoding.md R84) -/

/-- A word of class F is decided by its low byte (90_conflicts.md C3). -/
theorem decode_classF (x : Reg) (nn : Byte) : decode (encXNN 0xF#4 x nn) = decodeClassF (encXNN 0xF#4 x nn) := by
  simp [decode_encXNN, decodeClass]

theorem decode_ldVxDt (x : Reg) : decode (encode (.ldVxDt x)) = .ldVxDt x := by
  simp [encode, decode_classF, decodeClassF]

theorem decode_ldDtVx (x : Reg) : decode (encode (.ldDtVx x)) = .ldDtVx x := by
  simp [encode, decode_classF, decodeClassF]

theorem decode_ldStVx (x : Reg) : decode (encode (.ldStVx x)) = .ldStVx x := by
  simp [encode, decode_classF, decodeClassF]

/-! ### The operation of each instruction -/

theorem exec_ldVxDt (x : Reg) (s : State) : exec (.ldVxDt x) s = .next (s.writeAndAdvance x s.dt) := rfl

theorem exec_ldDtVx (x : Reg) (s : State) : exec (.ldDtVx x) s = .next (s.setDt (s.reg x)).advance := rfl

theorem exec_ldStVx (x : Reg) (s : State) : exec (.ldStVx x) s = .next (s.setSt (s.reg x)).advance := rfl

/-! ### What the two timer writes do -/

/-- DT takes the byte, PC goes to the next word, and nothing else changes: ST too is kept. -/
theorem Machine.State.setDt_advance_effect (s : State) (b : Byte) :
    (s.setDt b).advance.dt = b ∧ (s.setDt b).advance.pc = s.pc + 2#16 ∧
      OnlyChanges [.dt, .pc] [] s (s.setDt b).advance :=
  ⟨rfl, (s.setDt b).pcPlus_eq 2, (s.setDt_frame b).trans (State.advance_frame _)⟩

/-- ST takes the byte, PC goes to the next word, and nothing else changes: DT too is kept. -/
theorem Machine.State.setSt_advance_effect (s : State) (b : Byte) :
    (s.setSt b).advance.st = b ∧ (s.setSt b).advance.pc = s.pc + 2#16 ∧
      OnlyChanges [.st, .pc] [] s (s.setSt b).advance :=
  ⟨rfl, (s.setSt b).pcPlus_eq 2, (s.setSt_frame b).trans (State.advance_frame _)⟩

/-! ### The obligations -/

/-- Settles O40: LD Vx, DT is a register write of the byte that DT holds. -/
theorem readDelayTimer : Obligations.ReadDelayTimer := by
  unfold Obligations.ReadDelayTimer
  exact fun x => ⟨decode_ldVxDt x, fun s => ⟨_, exec_ldVxDt x s, s.writeAndAdvance_effect x s.dt⟩⟩

/-- Settles O41: each instruction writes its own timer and advances. -/
theorem writeTimers : Obligations.WriteTimers := by
  unfold Obligations.WriteTimers
  exact fun x => ⟨decode_ldDtVx x, decode_ldStVx x, fun s =>
    ⟨⟨_, exec_ldDtVx x s, s.setDt_advance_effect (s.reg x)⟩,
      ⟨_, exec_ldStVx x s, s.setSt_advance_effect (s.reg x)⟩⟩⟩

end Sys2Proof
end

section
/-!
SUPPORT. The instruction that points I at a glyph (44_index_memory.md R222): the word that decodes to it, the operation it
runs, and what a write to I does.
-/

namespace Sys2Proof

open Machine

theorem decode_ldFVx (x : Reg) : decode (encode (.ldFVx x)) = .ldFVx x := by
  simp [encode, decode_classF, decodeClassF]

theorem exec_ldFVx (x : Reg) (s : State) :
    exec (.ldFVx x) s = .next (s.setI (glyphAddress (s.reg x))).advance := rfl

/-- I keeps the low 12 bits of what is written to it (10_state.md R27). -/
theorem Machine.State.setI_i_toNat (s : State) (n : Nat) : (s.setI n).i.toNat = n % 4096 := by
  have hfits : n % 4096 < 2 ^ 16 := (Nat.mod_lt n (by decide)).trans (by decide)
  rw [State.setI_i, trunc16, BitVec.toNat_ofNat, Nat.mod_eq_of_lt hfits]

/-- I takes the low 12 bits, PC goes to the next word, and nothing else changes. -/
theorem Machine.State.setI_advance_effect (s : State) (n : Nat) :
    (s.setI n).advance.i.toNat = n % 4096 ∧ (s.setI n).advance.pc = s.pc + 2#16 ∧
      OnlyChanges [.i, .pc] [] s (s.setI n).advance :=
  ⟨s.setI_i_toNat n, (s.setI n).pcPlus_eq 2, (s.setI_frame n).trans (State.advance_frame _)⟩

/-- Even the greatest byte's glyph, at 255 · 5 = 1275, lies inside the 12 bits of I. -/
theorem Machine.glyphAddress_lt (b : Byte) : glyphAddress b < 4096 := by
  have hbyte : b.toNat < 256 := b.isLt
  unfold glyphAddress
  omega

/-- Settles O53: no glyph address is so large that the 12 bits of I would cut it. -/
theorem fontAddressIsTimesFive : Obligations.FontAddressIsTimesFive := by
  unfold Obligations.FontAddressIsTimesFive
  refine fun x => ⟨decode_ldFVx x, fun s => ⟨_, exec_ldFVx x s, ?_⟩⟩
  obtain ⟨hi, hpc, hframe⟩ := s.setI_advance_effect (glyphAddress (s.reg x))
  have hwhole : glyphAddress (s.reg x) % 4096 = (s.reg x).toNat * 5 := Nat.mod_eq_of_lt (glyphAddress_lt _)
  exact ⟨hi.trans hwhole, hpc, hframe⟩

end Sys2Proof
end

section
/-!
SUPPORT. The opcode map both ways (30_encoding.md sections 1 to 3): every well-formed instruction is what its word
decodes to, every word is what its instruction encodes to, and the words that select no instruction are those of R85's
table.
-/

namespace Sys2Proof

open Machine

/-! ### The table of R85 -/

/-- R85's table, on the fields of the word. -/
def SelectsNone (w : Word) : Prop :=
  (fieldC w = 0x8#4 ∧ fieldN w ∈ [0x8#4, 0x9#4, 0xA#4, 0xB#4, 0xC#4, 0xD#4, 0xF#4]) ∨
  (fieldC w = 0xE#4 ∧ fieldNN w ∉ [0x9E#8, 0xA1#8]) ∨
  (fieldC w = 0xF#4 ∧ fieldNN w ∉ [0x07#8, 0x0A#8, 0x15#8, 0x18#8, 0x1E#8, 0x29#8, 0x33#8, 0x55#8, 0x65#8]) ∨
  (fieldC w = 0x5#4 ∧ fieldN w ≠ 0x0#4) ∨
  (fieldC w = 0x9#4 ∧ fieldN w ≠ 0x0#4)

theorem isUnrecognisedWord_iff (w : Word) : isUnrecognisedWord w = true ↔ SelectsNone w := by
  have field : ∀ {c : Nat}, (w.extractLsb' 12 4).toNat = c → (fieldC w).toNat = c := id
  unfold isUnrecognisedWord
  split
  case h_1 hc | h_2 hc | h_3 hc => simp [SelectsNone, ← BitVec.toNat_inj, field hc, fieldN]
  case h_4 hc | h_5 hc => simp [SelectsNone, ← BitVec.toNat_inj, field hc, fieldNN]
  case h_6 => simp_all [SelectsNone, ← BitVec.toNat_inj, fieldC]

/-! ### Decoding an encoded instruction -/

theorem decode_call (nnn : Addr12) : decode (encode (.call nnn)) = .call nnn := by
  simp [encode, decode_encNNN, decodeClass]

theorem decode_ldI (nnn : Addr12) : decode (encode (.ldI nnn)) = .ldI nnn := by
  simp [encode, decode_encNNN, decodeClass]

theorem decode_jpV0 (nnn : Addr12) : decode (encode (.jpV0 nnn)) = .jpV0 nnn := by
  simp [encode, decode_encNNN, decodeClass]

theorem decode_sys (nnn : Addr12) (hcls : nnn ≠ 0x0E0#12) (hret : nnn ≠ 0x0EE#12) :
    decode (encode (.sys nnn)) = .sys nnn := by
  have hncls : encNNN 0x0#4 nnn ≠ 0x00E0#16 := fun h =>
    hcls ((fieldNNN_encNNN _ _).symm.trans (congrArg fieldNNN h))
  have hnret : encNNN 0x0#4 nnn ≠ 0x00EE#16 := fun h =>
    hret ((fieldNNN_encNNN _ _).symm.trans (congrArg fieldNNN h))
  simp [encode, decode, hncls, hnret, decodeClass]

theorem decode_rnd (x : Reg) (nn : Byte) : decode (encode (.rnd x nn)) = .rnd x nn := by
  simp [encode, decode_encXNN, decodeClass]

theorem decode_seReg (x y : Reg) : decode (encode (.seReg x y)) = .seReg x y := by
  simp [encode, decode_encXYN, decodeClass]

theorem decode_sneReg (x y : Reg) : decode (encode (.sneReg x y)) = .sneReg x y := by
  simp [encode, decode_encXYN, decodeClass]

theorem decode_drw (x y : Reg) (n : Nibble) : decode (encode (.drw x y n)) = .drw x y n := by
  simp [encode, decode_encXYN, decodeClass]

theorem decode_addReg (x y : Reg) : decode (encode (.addReg x y)) = .addReg x y := by
  simp [encode, decode_class8, decodeClass8]

theorem decode_sub (x y : Reg) : decode (encode (.sub x y)) = .sub x y := by
  simp [encode, decode_class8, decodeClass8]

theorem decode_shr (x y : Reg) : decode (encode (.shr x y)) = .shr x y := by
  simp [encode, decode_class8, decodeClass8]

theorem decode_subn (x y : Reg) : decode (encode (.subn x y)) = .subn x y := by
  simp [encode, decode_class8, decodeClass8]

theorem decode_shl (x y : Reg) : decode (encode (.shl x y)) = .shl x y := by
  simp [encode, decode_class8, decodeClass8]

/-- A word of class E is decided by its low byte (90_conflicts.md C3). -/
theorem decode_classE (x : Reg) (nn : Byte) : decode (encXNN 0xE#4 x nn) = decodeClassE (encXNN 0xE#4 x nn) := by
  simp [decode_encXNN, decodeClass]

theorem decode_skp (x : Reg) : decode (encode (.skp x)) = .skp x := by
  simp [encode, decode_classE, decodeClassE]

theorem decode_sknp (x : Reg) : decode (encode (.sknp x)) = .sknp x := by
  simp [encode, decode_classE, decodeClassE]

theorem decode_ldVxK (x : Reg) : decode (encode (.ldVxK x)) = .ldVxK x := by
  simp [encode, decode_classF, decodeClassF]

theorem decode_addIVx (x : Reg) : decode (encode (.addIVx x)) = .addIVx x := by
  simp [encode, decode_classF, decodeClassF]

theorem decode_ldBVx (x : Reg) : decode (encode (.ldBVx x)) = .ldBVx x := by
  simp [encode, decode_classF, decodeClassF]

theorem decode_ldMemVx (x : Reg) : decode (encode (.ldMemVx x)) = .ldMemVx x := by
  simp [encode, decode_classF, decodeClassF]

theorem decode_ldVxMem (x : Reg) : decode (encode (.ldVxMem x)) = .ldVxMem x := by
  simp [encode, decode_classF, decodeClassF]

/-! ### The words that select no instruction -/

theorem decodeClass8_unrecognised (w : Word) (h : fieldN w ∈ [0x8#4, 0x9#4, 0xA#4, 0xB#4, 0xC#4, 0xD#4, 0xF#4]) :
    decodeClass8 w = .unrecognised w := by
  simp only [List.mem_cons, List.not_mem_nil, or_false] at h
  rcases h with h | h | h | h | h | h | h <;> simp [decodeClass8, h]

theorem decodeClassE_unrecognised (w : Word) (h : fieldNN w ∉ [0x9E#8, 0xA1#8]) :
    decodeClassE w = .unrecognised w := by
  unfold decodeClassE
  split <;> simp_all [← BitVec.toNat_inj]

theorem decodeClassF_unrecognised (w : Word)
    (h : fieldNN w ∉ [0x07#8, 0x0A#8, 0x15#8, 0x18#8, 0x1E#8, 0x29#8, 0x33#8, 0x55#8, 0x65#8]) :
    decodeClassF w = .unrecognised w := by
  unfold decodeClassF
  split <;> simp_all [← BitVec.toNat_inj]

theorem decode_unrecognised (w : Word) (h : SelectsNone w) : decode w = .unrecognised w := by
  rcases h with ⟨hc, h⟩ | ⟨hc, h⟩ | ⟨hc, h⟩ | ⟨hc, h⟩ | ⟨hc, h⟩ <;>
    rw [decode_of_class w (by simp [hc]), decodeClass, hc]
  · exact decodeClass8_unrecognised w h
  · exact decodeClassE_unrecognised w h
  · exact decodeClassF_unrecognised w h
  · exact if_neg h
  · exact if_neg h

/-- Settles O1: row by row; SYS needs that its word is neither literal, and the last row is R85's table. -/
theorem decodeOfEncode : Obligations.DecodeOfEncode := by
  unfold Obligations.DecodeOfEncode
  intro i hi
  cases i with
  | cls => decide
  | ret => decide
  | sys nnn =>
    obtain ⟨hcls, hret⟩ : nnn ≠ 0x0E0#12 ∧ nnn ≠ 0x0EE#12 := by
      simpa [Instr.WellFormed, Instr.wellFormed, sysOperandOk] using hi
    exact decode_sys nnn hcls hret
  | jp nnn => exact decode_jp nnn
  | call nnn => exact decode_call nnn
  | seImm x nn => exact decode_seImm x nn
  | sneImm x nn => exact decode_sneImm x nn
  | seReg x y => exact decode_seReg x y
  | ldImm x nn => exact decode_ldImm x nn
  | addImm x nn => exact decode_addImm x nn
  | ldReg x y => exact decode_ldReg x y
  | orReg x y => exact decode_orReg x y
  | andReg x y => exact decode_andReg x y
  | xorReg x y => exact decode_xorReg x y
  | addReg x y => exact decode_addReg x y
  | sub x y => exact decode_sub x y
  | shr x y => exact decode_shr x y
  | subn x y => exact decode_subn x y
  | shl x y => exact decode_shl x y
  | sneReg x y => exact decode_sneReg x y
  | ldI nnn => exact decode_ldI nnn
  | jpV0 nnn => exact decode_jpV0 nnn
  | rnd x nn => exact decode_rnd x nn
  | drw x y n => exact decode_drw x y n
  | skp x => exact decode_skp x
  | sknp x => exact decode_sknp x
  | ldVxDt x => exact decode_ldVxDt x
  | ldVxK x => exact decode_ldVxK x
  | ldDtVx x => exact decode_ldDtVx x
  | ldStVx x => exact decode_ldStVx x
  | addIVx x => exact decode_addIVx x
  | ldFVx x => exact decode_ldFVx x
  | ldBVx x => exact decode_ldBVx x
  | ldMemVx x => exact decode_ldMemVx x
  | ldVxMem x => exact decode_ldVxMem x
  | unrecognised w => exact decode_unrecognised w ((isUnrecognisedWord_iff w).mp hi)

/-! ### A word is its fields -/

theorem encNNN_fields (w : Word) : encNNN (fieldC w) (fieldNNN w) = w := by
  refine Eq.trans (BitVec.extractLsb'_append_extractLsb'_eq_extractLsb' (x := w) (by rfl)) ?_
  exact BitVec.extractLsb'_eq_self

theorem encXNN_fields (w : Word) : encXNN (fieldC w) (fieldX w) (fieldNN w) = w := by
  unfold encXNN fieldC fieldX fieldNN
  rw [BitVec.extractLsb'_append_extractLsb'_eq_extractLsb' (by rfl),
    BitVec.extractLsb'_append_extractLsb'_eq_extractLsb' (by rfl)]
  exact BitVec.extractLsb'_eq_self

theorem encXYN_fields (w : Word) : encXYN (fieldC w) (fieldX w) (fieldY w) (fieldN w) = w := by
  unfold encXYN fieldC fieldX fieldY fieldN
  rw [BitVec.extractLsb'_append_extractLsb'_eq_extractLsb' (by rfl),
    BitVec.extractLsb'_append_extractLsb'_eq_extractLsb' (by rfl),
    BitVec.extractLsb'_append_extractLsb'_eq_extractLsb' (by rfl)]
  exact BitVec.extractLsb'_eq_self

/-! ### Encoding a decoded word -/

/-- The instruction is one of the opcode map, and the word is its encoding. -/
def Instr.StandsFor (i : Instr) (w : Word) : Prop := i.WellFormed ∧ encode i = w

theorem unrecognised_standsFor (w : Word) (h : SelectsNone w) : (Instr.unrecognised w).StandsFor w :=
  ⟨(isUnrecognisedWord_iff w).mpr h, rfl⟩

theorem encNNN_of_fields {w : Word} {c : Nibble} (hc : (fieldC w).toNat = c.toNat) : encNNN c (fieldNNN w) = w := by
  rw [← BitVec.eq_of_toNat_eq hc, encNNN_fields]

theorem encXNN_of_fields {w : Word} {c : Nibble} {nn : Byte} (hc : (fieldC w).toNat = c.toNat)
    (hnn : (fieldNN w).toNat = nn.toNat) : encXNN c (fieldX w) nn = w := by
  rw [← BitVec.eq_of_toNat_eq hc, ← BitVec.eq_of_toNat_eq hnn, encXNN_fields]

theorem encXYN_of_fields {w : Word} {c n : Nibble} (hc : (fieldC w).toNat = c.toNat)
    (hn : (fieldN w).toNat = n.toNat) : encXYN c (fieldX w) (fieldY w) n = w := by
  rw [← BitVec.eq_of_toNat_eq hc, ← BitVec.eq_of_toNat_eq hn, encXYN_fields]

theorem decodeClass8_standsFor (w : Word) (hc : (fieldC w).toNat = 0x8) : (decodeClass8 w).StandsFor w := by
  unfold decodeClass8
  split
  case h_10 =>
    have hn : (fieldN w).toNat < 16 := (fieldN w).isLt
    refine unrecognised_standsFor w (.inl ⟨BitVec.eq_of_toNat_eq hc, ?_⟩)
    simp only [← BitVec.toNat_inj, BitVec.toNat_ofNat, List.mem_cons, List.not_mem_nil, or_false, imp_false] at *
    omega
  all_goals
    rename_i hn
    exact ⟨rfl, encXYN_of_fields hc hn⟩

theorem decodeClassE_standsFor (w : Word) (hc : (fieldC w).toNat = 0xE) : (decodeClassE w).StandsFor w := by
  unfold decodeClassE
  split
  case h_1 hnn | h_2 hnn => exact ⟨rfl, encXNN_of_fields hc hnn⟩
  case h_3 =>
    refine unrecognised_standsFor w (.inr (.inl ⟨BitVec.eq_of_toNat_eq hc, ?_⟩))
    simp_all [← BitVec.toNat_inj]

theorem decodeClassF_standsFor (w : Word) (hc : (fieldC w).toNat = 0xF) : (decodeClassF w).StandsFor w := by
  unfold decodeClassF
  split
  case h_10 =>
    refine unrecognised_standsFor w (.inr (.inr (.inl ⟨BitVec.eq_of_toNat_eq hc, ?_⟩)))
    simp_all [← BitVec.toNat_inj]
  all_goals
    rename_i hnn
    exact ⟨rfl, encXNN_of_fields hc hnn⟩

/-- Classes 5 and 9: the compared registers where the last nibble is 0, else no instruction (D11). -/
theorem ite_unrecognised_standsFor {w : Word} {i : Instr} (hi : fieldN w = 0x0#4 → i.StandsFor w)
    (hw : fieldN w ≠ 0x0#4 → SelectsNone w) : (if fieldN w = 0x0#4 then i else .unrecognised w).StandsFor w := by
  split
  case isTrue hn => exact hi hn
  case isFalse hn => exact unrecognised_standsFor w (hw hn)

theorem decodeClass_standsFor (w : Word) (hcls : w ≠ 0x00E0#16) (hret : w ≠ 0x00EE#16) :
    (decodeClass w).StandsFor w := by
  unfold decodeClass
  split
  case h_1 hc =>
    have hw : encNNN 0x0#4 (fieldNNN w) = w := encNNN_of_fields hc
    refine ⟨?_, hw⟩
    have hncls : fieldNNN w ≠ 0x0E0#12 := fun h => hcls (by rw [← hw, h]; rfl)
    have hnret : fieldNNN w ≠ 0x0EE#12 := fun h => hret (by rw [← hw, h]; rfl)
    simp [Instr.WellFormed, Instr.wellFormed, sysOperandOk, hncls, hnret]
  case h_2 hc | h_3 hc | h_11 hc | h_12 hc => exact ⟨rfl, encNNN_of_fields hc⟩
  case h_4 hc | h_5 hc | h_7 hc | h_8 hc | h_13 hc => exact ⟨rfl, encXNN_of_fields hc rfl⟩
  case h_6 hc =>
    exact ite_unrecognised_standsFor (fun hn => ⟨rfl, encXYN_of_fields hc (congrArg _ hn)⟩)
      fun hn => .inr (.inr (.inr (.inl ⟨BitVec.eq_of_toNat_eq hc, hn⟩)))
  case h_10 hc =>
    exact ite_unrecognised_standsFor (fun hn => ⟨rfl, encXYN_of_fields hc (congrArg _ hn)⟩)
      fun hn => .inr (.inr (.inr (.inr ⟨BitVec.eq_of_toNat_eq hc, hn⟩)))
  case h_9 hc => exact decodeClass8_standsFor w hc
  case h_14 hc => exact ⟨rfl, encXYN_of_fields hc rfl⟩
  case h_15 hc => exact decodeClassE_standsFor w hc
  case h_16 =>
    have hlt : (fieldC w).toNat < 16 := (fieldC w).isLt
    have hc : (fieldC w).toNat = 0xF := by
      simp only [imp_false] at *
      omega
    exact decodeClassF_standsFor w hc

/-- Settles O2: the two literals, then class by class. -/
theorem encodeOfDecode : Obligations.EncodeOfDecode := by
  unfold Obligations.EncodeOfDecode
  intro w
  change (decode w).StandsFor w
  unfold decode
  split
  case isTrue hcls => exact ⟨rfl, hcls.symm⟩
  case isFalse hcls =>
    split
    case isTrue hret => exact ⟨rfl, hret.symm⟩
    case isFalse hret => exact decodeClass_standsFor w hcls hret

/-- Two bytes hold one instruction: the one of their word. -/
theorem decodeBytes_pair_iff (hi lo : Byte) (i : Instr) :
    decodeBytes [hi, lo] = .ok (i, []) ↔ decode (wordOfBytes hi lo) = i := by
  simp [decodeBytes]

/-- Settles O4: each pair of bytes is one word, and each word is looked up in the opcode map. -/
theorem workedEncodingsDecode : Obligations.WorkedEncodingsDecode := by
  unfold Obligations.WorkedEncodingsDecode
  simp only [decodeBytes_pair_iff]
  decide

/-! ### The no-op of R85 -/

theorem exec_unrecognised (w : Word) (s : State) : exec (.unrecognised w) s = .next s.advance := rfl

/-- PC goes to the next word, and nothing else changes. -/
theorem Machine.State.advance_effect (s : State) :
    s.advance.pc = s.pc + 2#16 ∧ OnlyChanges [.pc] [] s s.advance :=
  ⟨s.pcPlus_eq 2, s.advance_frame⟩

theorem decode_eq_unrecognised_iff (w : Word) : decode w = .unrecognised w ↔ SelectsNone w := by
  refine ⟨fun h => (isUnrecognisedWord_iff w).mp ?_, decode_unrecognised w⟩
  obtain ⟨hwf, -⟩ := encodeOfDecode w
  rwa [h] at hwf

/-- Settles O3: the words of R85's table, and the one operation that such a word runs. -/
theorem unrecognisedWordsAreNoOps : Obligations.UnrecognisedWordsAreNoOps := by
  unfold Obligations.UnrecognisedWordsAreNoOps
  exact ⟨decode_eq_unrecognised_iff, fun w s => ⟨_, exec_unrecognised w s, s.advance_effect⟩⟩

end Sys2Proof
end

section
/-!
SUPPORT. The step cycle (70_reset_and_hazards.md R284): what a step does in each STATUS, what a fetch reads, and that
every instruction, step and run of actions answers a next state.
-/

namespace Sys2Proof

open Machine

/-! ### The step in each STATUS -/

section
variable {s : State}

theorem step_run (h : s.status = .run) : step s = exec (decode s.fetch) s := by
  simp [step, State.stepCycle, h, State.runOne]

theorem step_waitKey {x : Reg} (h : s.status = .waitKey x) : step s = .next s := by
  simp [step, State.stepCycle, h]

theorem step_fault {kind : FaultKind} {pc w : Word} (h : s.status = .fault kind pc w) : step s = .next s := by
  simp [step, State.stepCycle, h]

/-- A step is one instruction, or nothing. -/
theorem step_cases (s : State) : step s = exec (decode s.fetch) s ∨ step s = .next s := by
  cases hstatus : s.status with
  | run => exact .inl (step_run hstatus)
  | waitKey x => exact .inr (step_waitKey hstatus)
  | fault kind pc w => exact .inr (step_fault hstatus)

end

/-! ### The fetched word -/

/-- R62: the second byte is read at the 16-bit sum PC + 1. -/
theorem Machine.State.fetch_eq (s : State) :
    s.fetch = wordOfBytes (s.memRead s.pc.toNat) (s.memRead (s.pc + 1#16).toNat) := by
  rw [State.fetch, ← s.pcPlus_eq 1]
  rfl

theorem wordOfBytes_toNat (hi lo : Byte) : (wordOfBytes hi lo).toNat = 256 * hi.toNat + lo.toNat := by
  rw [wordOfBytes, BitVec.toNat_append, Nat.shiftLeft_eq, Nat.mul_comm, ← Nat.two_pow_add_eq_or_of_lt lo.isLt]

/-- Settles O6: the port reduces both addresses, and the second is a 16-bit sum. -/
theorem fetchIsBigEndian : Obligations.FetchIsBigEndian := by
  unfold Obligations.FetchIsBigEndian
  intro s
  rw [State.memRead_mod, State.memRead_mod, s.fetch_eq, wordOfBytes_toNat, BitVec.toNat_add]
  rfl

/-- Settles O5: STATUS by STATUS; the bytes of the second clause are the fetched word's. -/
theorem stepRunsDecodedInstruction : Obligations.StepRunsDecodedInstruction := by
  unfold Obligations.StepRunsDecodedInstruction
  refine fun s => ⟨fun hrun => ⟨step_run hrun, fun i hi => ?_⟩, fun x => step_waitKey, fun kind pc w => step_fault⟩
  rw [decodeBytes_pair_iff, ← s.fetch_eq] at hi
  subst hi
  exact ⟨(encodeOfDecode s.fetch).1, step_run hrun⟩

/-- Settles O59: the instruction of an idle state is a jump to its own address. -/
theorem idleIsAFixedPoint : Obligations.IdleIsAFixedPoint := by
  unfold Obligations.IdleIsAFixedPoint
  rintro s ⟨hrun, nnn, hdecode, hself⟩
  obtain ⟨-, hjp⟩ := jumpSetsPc nnn
  obtain ⟨t, hnext, -, -, hsame⟩ := hjp s
  rw [step_run hrun, hdecode, hnext, hsame hself]

/-! ### Every action completes -/

theorem exec_completes (i : Instr) (s : State) : ∃ t, exec i s = .next t := by
  obtain ⟨t, hnext, -⟩ := exec_next_frame i s
  exact ⟨t, hnext⟩

theorem step_completes (s : State) : ∃ t, step s = .next t := by
  obtain hexec | hidle := step_cases s
  · rw [hexec]
    exact exec_completes _ s
  · exact ⟨s, hidle⟩

theorem act_completes (s : State) (a : HostAction) : ∃ t, act s a = .next t := by
  cases a with
  | step => exact step_completes s
  | setKeys m => exact ⟨_, rfl⟩
  | keyPress k => exact ⟨_, rfl⟩
  | timerTick => exact ⟨_, rfl⟩

/-- A run is its first action and the rest of it from there. -/
theorem runActions_cons {s u : State} {a : HostAction} (h : act s a = .next u) (rest : List HostAction) :
    runActions s (a :: rest) = runActions u rest := by
  simp [runActions, h]

theorem runActions_completes (actions : List HostAction) (s : State) : ∃ t, runActions s actions = .next t := by
  induction actions generalizing s with
  | nil => exact ⟨s, rfl⟩
  | cons a rest ih =>
    obtain ⟨u, hfirst⟩ := act_completes s a
    rw [runActions_cons hfirst]
    exact ih u

/-- Settles O7: instructions, then steps, then runs. -/
theorem everyActionCompletes : Obligations.EveryActionCompletes := by
  unfold Obligations.EveryActionCompletes
  exact ⟨exec_completes, step_completes, runActions_completes⟩

end Sys2Proof
end

section
/-!
SUPPORT. The invariant `State.Inv` (10_state.md R27, R28; 20_memory.md R60): each shared operation keeps it, so every
instruction, step and host action does, and every reachable state meets it.
-/

namespace Sys2Proof

open Machine

/-! ### The operations -/

namespace Machine
variable {s : State}

/-- The invariant speaks of memory, I, the stack and the parameters only. -/
theorem State.Inv.of_same {t : State} (h : s.Inv) (hmem : t.mem = s.mem := by simp) (hi : t.i = s.i := by simp)
    (hstack : t.stack = s.stack := by simp) (hsp : t.sp = s.sp := by simp)
    (hconfig : t.config = s.config := by simp) : t.Inv := by
  obtain ⟨index, pointer, store, capacity, memory⟩ := h
  exact ⟨by rwa [hi], by rwa [hsp, hconfig], by rwa [hstack, hconfig], by rwa [hconfig], by rwa [hconfig, hmem]⟩

theorem State.Inv.setReg (h : s.Inv) (x : Reg) (b : Byte) : (s.setReg x b).Inv := h.of_same

theorem State.Inv.setFlag (h : s.Inv) (b : Byte) : (s.setFlag b).Inv := h.of_same

theorem State.Inv.jump (h : s.Inv) (target : Word) : (s.jump target).Inv := h.of_same

theorem State.Inv.advance (h : s.Inv) : s.advance.Inv := h.of_same

theorem State.Inv.skipIf (h : s.Inv) (c : Bool) : (s.skipIf c).Inv := h.of_same

theorem State.Inv.writeAndAdvance (h : s.Inv) (x : Reg) (b : Byte) : (s.writeAndAdvance x b).Inv :=
  (h.setReg x b).advance

theorem State.Inv.drawn (h : s.Inv) : s.drawn.Inv := h.of_same

theorem State.Inv.setDt (h : s.Inv) (b : Byte) : (s.setDt b).Inv := h.of_same

theorem State.Inv.setSt (h : s.Inv) (b : Byte) : (s.setSt b).Inv := h.of_same

theorem State.Inv.setStatus (h : s.Inv) (u : Status) : (s.setStatus u).Inv := h.of_same

theorem State.Inv.clearDisplay (h : s.Inv) : s.clearDisplay.Inv := h.of_same

theorem State.Inv.drawRows (h : s.Inv) (x0 y0 : Byte) (n : Nat) : (State.drawRows x0 y0 n s).Inv := h.of_same

theorem State.Inv.loadRegs (h : s.Inv) (n : Nat) : (State.loadRegs n s).Inv := h.of_same

theorem State.Inv.setI (h : s.Inv) (n : Nat) : (s.setI n).Inv :=
  { h with index := by rw [s.setI_i_toNat]; exact Nat.mod_lt n (by decide) }

/-- A state with other memory meets the invariant if that memory is canonical. -/
theorem State.Inv.withMem (h : s.Inv) {m : Memory} (hm : Memory.wf s.config.font m) :
    ({ s with mem := m } : State).Inv :=
  { h with memory := hm }

theorem State.Inv.memWriteList (h : s.Inv) (n : Nat) (bytes : List Byte) : (s.memWriteList n bytes).Inv := by
  rw [State.memWriteList_fields]
  exact h.withMem (State.memWriteList_wf bytes s n h.memory)

theorem State.Inv.storeRegs (h : s.Inv) (n : Nat) : (State.storeRegs n s).Inv := by
  rw [State.storeRegs_fields]
  exact h.withMem (s.storeRegs_wf n h.memory)

/-- A pop counts down from at most the capacity. -/
theorem State.Inv.popAndJump (h : s.Inv) (w : Word) : (s.popAndJump w).Inv := by
  obtain ⟨-, hfault⟩ | ⟨-, hpop⟩ := s.popAndJump_cases w
  · rw [hfault]
    exact h.setStatus _
  · rw [hpop]
    exact { h with pointer := (Nat.sub_le _ 1).trans h.pointer }

/-- A push below the capacity counts up to at most the capacity, and stores without growing the list. -/
theorem State.Inv.pushAndJump (h : s.Inv) (w v target : Word) : (s.pushAndJump w v target).Inv := by
  obtain ⟨-, hfault⟩ | ⟨hroom, hpush⟩ := s.pushAndJump_cases w v target
  · rw [hfault]
    exact h.setStatus _
  · rw [hpush]
    exact { h with
      pointer := Nat.lt_of_le_of_ne h.pointer hroom
      store := List.length_set.trans h.store }

theorem State.Inv.setKeys (h : s.Inv) (m : Word) : (s.setKeys m).Inv := h.of_same

theorem State.Inv.keyPress (h : s.Inv) (k : Nibble) : (s.keyPress k).Inv := h.of_same

theorem State.Inv.timerTick (h : s.Inv) : s.timerTick.Inv := h.of_same

end Machine

/-! ### Instructions, steps and actions -/

/-- Every instruction keeps the invariant. -/
theorem exec_inv {i : Instr} {s t : State} (h : s.Inv) (hnext : exec i s = .next t) : t.Inv := by
  cases i <;> obtain rfl := Host.Outcome.next.inj hnext
  case cls => exact h.clearDisplay.advance
  case ret => exact h.popAndJump _
  case call => exact h.pushAndJump _ _ _
  case jp | jpV0 => exact h.jump _
  case sys | unrecognised => exact h.advance
  case seImm | sneImm | seReg | sneReg | skp | sknp => exact h.skipIf _
  case ldImm | addImm | ldReg | orReg | andReg | xorReg | ldVxDt => exact h.writeAndAdvance _ _
  case addReg | sub | shr | subn | shl => exact (h.setFlag _).writeAndAdvance _ _
  case rnd => exact h.drawn.writeAndAdvance _ _
  case drw => exact ((h.setFlag _).drawRows _ _ _).advance
  case ldI | addIVx | ldFVx => exact (h.setI _).advance
  case ldVxK => exact h.setStatus _
  case ldDtVx => exact (h.setDt _).advance
  case ldStVx => exact (h.setSt _).advance
  case ldBVx => exact (h.memWriteList _ _).advance
  case ldMemVx => exact (h.storeRegs _).advance
  case ldVxMem => exact (h.loadRegs _).advance

/-- Settles O8: a step is an instruction, or nothing. -/
theorem stepKeepsInvariant : Obligations.StepKeepsInvariant := by
  unfold Obligations.StepKeepsInvariant
  intro s t h hnext
  obtain hexec | hidle := step_cases s
  · exact exec_inv h (hexec ▸ hnext)
  · obtain rfl := Host.Outcome.next.inj (hidle ▸ hnext)
    exact h

theorem act_inv {s t : State} {a : HostAction} (h : s.Inv) (hnext : act s a = .next t) : t.Inv := by
  cases a with
  | step => exact stepKeepsInvariant s t h hnext
  | setKeys m => exact Host.Outcome.next.inj hnext ▸ h.setKeys m
  | keyPress k => exact Host.Outcome.next.inj hnext ▸ h.keyPress k
  | timerTick => exact Host.Outcome.next.inj hnext ▸ h.timerTick

/-- Every fresh state meets the invariant. -/
theorem Machine.State.init_inv (c : Config) (hcapacity : 1 ≤ c.stackCapacity) : (State.init c).Inv :=
  ⟨Nat.zero_lt_succ 4095, Nat.zero_le _, List.length_replicate, hcapacity, Memory.wf_nil c.font⟩

/-- Settles O9: the reset state is a fresh state with 100 stack entries. -/
theorem resetMeetsInvariant : Obligations.ResetMeetsInvariant := by
  unfold Obligations.ResetMeetsInvariant
  exact State.init_inv defaultConfig (by decide)

/-- A program of at most 3584 bytes is stored from 0x200 into a fresh state. -/
theorem create_of_fits (c : Config) {program : List Byte} (h : program.length ≤ 3584) :
    create c program = some ((State.init c).memWriteList 0x200 program) := if_pos h

theorem create_of_too_long (c : Config) {program : List Byte} (h : 3584 < program.length) :
    create c program = none := if_neg (Nat.not_le.mpr h)

theorem create_inv {c : Config} {program : List Byte} {s : State} (hcapacity : 1 ≤ c.stackCapacity)
    (h : create c program = some s) : s.Inv := by
  by_cases hfits : program.length ≤ 3584
  · rw [create_of_fits c hfits, Option.some_inj] at h
    subst h
    exact (State.init_inv c hcapacity).memWriteList _ _
  · rw [create_of_too_long c (Nat.not_le.mp hfits)] at h
    cases h

/-- Settles O10, by induction on the host's actions. -/
theorem reachableStatesMeetInvariant : Obligations.ReachableStatesMeetInvariant := by
  unfold Obligations.ReachableStatesMeetInvariant
  intro s hreach
  induction hreach with
  | created c program s hcapacity hcreate => exact create_inv hcapacity hcreate
  | acted s t a _ hact ih => exact act_inv ih hact

end Sys2Proof
end

section
/-!
SUPPORT. The rest of control flow (40_control_flow.md): SYS, CALL, JP V0 and the register skips, and the two ends of a
push and of a pop as the instructions meet them.
-/

namespace Sys2Proof

open Machine

/-! ### The operation of each instruction -/

theorem exec_sys (nnn : Addr12) (s : State) : exec (.sys nnn) s = .next s.advance := rfl

theorem exec_call (nnn : Addr12) (s : State) :
    exec (.call nnn) s = .next (s.pushAndJump (0x2#4 ++ nnn) (s.pc + 2#16) (zextAddr nnn)) := by
  rw [← s.pcPlus_eq 2]
  rfl

theorem exec_jpV0 (nnn : Addr12) (s : State) :
    exec (.jpV0 nnn) s = .next (s.jump (jumpV0Target nnn (s.reg 0x0#4))) := rfl

theorem exec_seReg (x y : Reg) (s : State) :
    exec (.seReg x y) s = .next (s.skipIf (decide (s.reg x = s.reg y))) := rfl

theorem exec_sneReg (x y : Reg) (s : State) :
    exec (.sneReg x y) s = .next (s.skipIf (decide (s.reg x ≠ s.reg y))) := by
  rw [decide_not]
  rfl

/-! ### The four ends of CALL and RET -/

section
variable {s : State}

theorem exec_ret_empty (h : s.sp = 0) : exec .ret s = .next (s.raise .stackUnderflow 0x00EE#16) := by
  rw [exec_ret, State.popAndJump, if_pos h]

theorem exec_ret_entry (h : s.sp ≠ 0) :
    exec .ret s = .next { s with sp := s.sp - 1, pc := s.stackAt (s.sp - 1) } := by
  rw [exec_ret, State.popAndJump, if_neg h]
  rfl

theorem exec_call_full (nnn : Addr12) (h : s.sp = s.config.stackCapacity) :
    exec (.call nnn) s = .next (s.raise .stackOverflow (0x2#4 ++ nnn)) := by
  rw [exec_call, State.pushAndJump, if_pos h]

theorem exec_call_room (nnn : Addr12) (h : s.sp ≠ s.config.stackCapacity) :
    exec (.call nnn) s =
      .next { s with stack := s.stack.set s.sp (s.pc + 2#16), sp := s.sp + 1, pc := zextAddr nnn } := by
  rw [exec_call, State.pushAndJump, if_neg h]
  rfl

end

/-! ### The pushed entry -/

/-- The entry that was set. -/
theorem getD_set_self {α : Type} {l : List α} {k : Nat} (v d : α) (h : k < l.length) : (l.set k v).getD k d = v := by
  simp [List.getD_eq_getElem?_getD, h]

/-- An entry beside the one that was set. -/
theorem getD_set_of_ne {α : Type} (l : List α) {j k : Nat} (v d : α) (h : k ≠ j) :
    (l.set j v).getD k d = l.getD k d := by
  simp [List.getD_eq_getElem?_getD, h.symm]

/-! ### The obligations -/

/-- Settles O18: SYS is the bare advance. -/
theorem sysIsNoOp : Obligations.SysIsNoOp := by
  unfold Obligations.SysIsNoOp
  exact ⟨decode_sys, fun nnn s => ⟨_, exec_sys nnn s, s.advance_effect⟩⟩

/-- Settles O21: the two ends of a push; the invariant says that the entry at SP stands in the store. -/
theorem callPushesOrFaults : Obligations.CallPushesOrFaults := by
  unfold Obligations.CallPushesOrFaults
  refine fun nnn => ⟨decode_call nnn, fun s => ⟨fun hfull => ?_, fun hroom => ?_⟩⟩
  · exact ⟨_, exec_call_full nnn hfull, rfl, s.setStatus_frame _⟩
  · refine ⟨_, exec_call_room nnn hroom, rfl, zextAddr_toNat nnn, fun hinv => ?_, fun k hk => ?_, ?_⟩
    · have hstored : s.sp < s.stack.length := by
        rw [hinv.store]
        exact Nat.lt_of_le_of_ne hinv.pointer hroom
      exact getD_set_self _ _ hstored
    · exact getD_set_of_ne _ _ _ hk
    · exact (stack_pc_frame s _ _ _).mono (by simp) (by simp)

/-- Settles O22: the greatest target is 0xFFF + 0xFF, so the 16-bit sum does not wrap. -/
theorem jumpV0AddsV0 : Obligations.JumpV0AddsV0 := by
  unfold Obligations.JumpV0AddsV0
  refine fun nnn => ⟨decode_jpV0 nnn, fun s => ⟨_, exec_jpV0 nnn s, ?_⟩⟩
  have hnnn : nnn.toNat < 4096 := nnn.isLt
  have hv0 : (s.reg 0x0#4).toNat < 256 := (s.reg 0x0#4).isLt
  have hsum : (jumpV0Target nnn (s.reg 0x0#4)).toNat = nnn.toNat + (s.reg 0x0#4).toNat :=
    Nat.mod_eq_of_lt (by omega)
  exact ⟨hsum, by rw [State.jump_pc, hsum]; omega, s.jump_frame _⟩

/-- Settles O24: both instructions are one conditional skip, on opposite conditions. -/
theorem skipOnRegister : Obligations.SkipOnRegister := by
  unfold Obligations.SkipOnRegister
  exact fun x y => ⟨decode_seReg x y, decode_sneReg x y, fun s =>
    ⟨⟨_, exec_seReg x y s, s.skipIf_decide_pc _, s.skipIf_frame _⟩,
      ⟨_, exec_sneReg x y s, s.skipIf_decide_pc _, s.skipIf_frame _⟩⟩⟩

/-- Settles O25: the RET pops the entry that the CALL pushed. -/
theorem callThenReturn : Obligations.CallThenReturn := by
  unfold Obligations.CallThenReturn
  intro s nnn hinv hroom
  obtain ⟨-, hcall⟩ := callPushesOrFaults nnn
  obtain ⟨t, hnext, hsp, -, hpushed, -, -⟩ := (hcall s).2 hroom.ne
  refine ⟨t, hnext, fun t' hstack hsp' => ?_⟩
  have hdepth : t'.sp = s.sp + 1 := hsp'.trans hsp
  have htop : t'.stackAt (t'.sp - 1) = s.pc + 2#16 := by
    rw [hdepth, Nat.add_sub_cancel, ← hpushed hinv, State.stackAt, hstack]
    rfl
  exact ⟨_, exec_ret_entry (by simp [hdepth]), htop, by simp [hdepth]⟩

end Sys2Proof
end

section
/-!
SUPPORT. Whole-machine rules (10_state.md section 11; 60_exceptions.md): where an instruction leaves PC and STATUS, and
which V registers it changes.
-/

namespace Sys2Proof

open Machine

/-! ### V registers -/

theorem mem_regsWritten_of_ne {i : Instr} {s t : State} {r : Reg} (h : exec i s = .next t) (hr : t.reg r ≠ s.reg r) :
    r ∈ i.regsWritten :=
  not_imp_comm.mp ((exec_frame h).2 r) hr

/-- The registers that FX65 loads are those up to Vx. -/
theorem mem_map_regNumber_iff (r x : Reg) : r ∈ (List.range (x.toNat + 1)).map regNumber ↔ r.toNat ≤ x.toNat := by
  have hx : x.toNat < 16 := x.isLt
  simp only [List.mem_map, List.mem_range, Nat.lt_succ_iff]
  constructor
  · rintro ⟨k, hk, rfl⟩
    rwa [regNumber, BitVec.toNat_ofNat, Nat.mod_eq_of_lt (by omega)]
  · exact fun hr => ⟨r.toNat, hr, by simp [regNumber]⟩

/-- Settles O13: a register that changed stands in the instruction's row of the writer table. -/
theorem registerWritersAreListed : Obligations.RegisterWritersAreListed := by
  unfold Obligations.RegisterWritersAreListed
  intro i s t r h hne
  have hr : r ∈ i.regsWritten := mem_regsWritten_of_ne h hne
  cases i with
  | ldImm | addImm | rnd =>
    obtain rfl := List.mem_singleton.mp hr
    exact .inr (.inl (by simp))
  | ldReg | orReg | andReg | xorReg =>
    obtain rfl := List.mem_singleton.mp hr
    exact .inr (.inr (.inl (by simp)))
  | ldVxDt =>
    obtain rfl := List.mem_singleton.mp hr
    exact .inr (.inr (.inr (.inl rfl)))
  | addReg | sub | shr | subn | shl =>
    obtain hflag | hdest := List.mem_pair.mp hr
    · exact .inl ⟨hflag, by simp⟩
    · subst hdest
      exact .inr (.inr (.inl (by simp)))
  | drw => exact .inl ⟨List.mem_singleton.mp hr, by simp⟩
  | ldVxMem x => exact .inr (.inr (.inr (.inr ⟨x, rfl, (mem_map_regNumber_iff r x).mp hr⟩)))
  | _ => cases hr

/-! ### PC -/

theorem Machine.State.skipIf_pc_cases (s : State) (c : Bool) :
    (s.skipIf c).pc = s.pc + 2#16 ∨ (s.skipIf c).pc = s.pc + 4#16 := by
  cases c
  · exact .inl (s.pcPlus_eq 2)
  · exact .inr (s.pcPlus_eq 4)

/-- An advance after operations that keep PC. -/
theorem Machine.State.advance_pc_of_same {s u : State} (h : u.pc = s.pc := by simp) : u.advance.pc = s.pc + 2#16 := by
  rw [State.advance_pc, State.pcPlus_eq, h]

/-- Settles O14: the instructions by the operation that each ends with. -/
theorem pcMovesByTwo : Obligations.PcMovesByTwo := by
  unfold Obligations.PcMovesByTwo
  intro i s t h
  cases i <;> obtain rfl := Host.Outcome.next.inj h
  case ret => exact .inr (.inr (.inr (.inl rfl)))
  case jp | call | jpV0 => exact .inr (.inr (.inr (.inr (by simp))))
  case ldVxK => exact .inr (.inr (.inl ⟨rfl, by simp⟩))
  case seImm | sneImm | seReg | sneReg | skp | sknp =>
    exact (s.skipIf_pc_cases _).imp id fun hpc => .inl ⟨hpc, by simp⟩
  all_goals exact .inl State.advance_pc_of_same

/-! ### STATUS -/

/-- An instruction keeps STATUS, but for the two stack faults and the key wait (60_exceptions.md R250). -/
theorem exec_status_cases {i : Instr} {s t : State} (h : exec i s = .next t) :
    t.status = s.status ∨
    (i = .ret ∧ s.sp = 0 ∧ t = s.raise .stackUnderflow 0x00EE#16) ∨
    (∃ nnn, i = .call nnn ∧ s.sp = s.config.stackCapacity ∧ t = s.raise .stackOverflow (0x2#4 ++ nnn)) ∨
    ∃ x, i = .ldVxK x ∧ t = s.setStatus (.waitKey x) := by
  by_cases hkept : t.status = s.status
  · exact .inl hkept
  obtain hret | ⟨nnn, hcall⟩ | ⟨x, hwait⟩ := Instr.writes_status_iff.mp (mem_partsWritten_of_not_same h hkept)
  · subst hret
    by_cases hsp : s.sp = 0
    · exact .inr (.inl ⟨rfl, hsp, Host.Outcome.next.inj (h.symm.trans (exec_ret_empty hsp))⟩)
    · obtain rfl := Host.Outcome.next.inj (h.symm.trans (exec_ret_entry hsp))
      exact .inl rfl
  · subst hcall
    by_cases hsp : s.sp = s.config.stackCapacity
    · exact .inr (.inr (.inl ⟨nnn, rfl, hsp, Host.Outcome.next.inj (h.symm.trans (exec_call_full nnn hsp))⟩))
    · obtain rfl := Host.Outcome.next.inj (h.symm.trans (exec_call_room nnn hsp))
      exact .inl rfl
  · subst hwait
    exact .inr (.inr (.inr ⟨x, rfl, (Host.Outcome.next.inj h).symm⟩))

/-- Settles O15: the ends of an instruction from RUN, one by one, against the two faults. -/
theorem onlyStackFaults : Obligations.OnlyStackFaults := by
  unfold Obligations.OnlyStackFaults
  intro i s t hrun h
  refine ⟨fun kind pc w => ⟨fun hfault => ?_, fun hcause => ?_⟩, fun ⟨kind, pc, w, hfault⟩ => ?_⟩
  · obtain hkept | ⟨hret, hsp, rfl⟩ | ⟨nnn, hcall, hsp, rfl⟩ | ⟨x, -, rfl⟩ := exec_status_cases h
    · cases hfault.symm.trans (hkept.trans hrun)
    · cases hfault
      exact .inl ⟨hret, hsp, rfl, rfl, rfl⟩
    · cases hfault
      exact .inr ⟨nnn, hcall, hsp, rfl, rfl, rfl⟩
    · cases hfault
  · obtain ⟨rfl, hsp, rfl, rfl, rfl⟩ | ⟨nnn, rfl, hsp, rfl, rfl, rfl⟩ := hcause
    · obtain rfl := Host.Outcome.next.inj (h.symm.trans (exec_ret_empty hsp))
      rfl
    · obtain rfl := Host.Outcome.next.inj (h.symm.trans (exec_call_full nnn hsp))
      rfl
  · obtain hkept | ⟨-, -, rfl⟩ | ⟨nnn, -, -, rfl⟩ | ⟨x, -, rfl⟩ := exec_status_cases h
    · cases hfault.symm.trans (hkept.trans hrun)
    · exact s.setStatus_frame _
    · exact s.setStatus_frame _
    · exact s.setStatus_frame _

end Sys2Proof
end

section
/-!
SUPPORT. The reader column of 10_state.md section 11 for the timers, the keys and the stack store: these parts stand
behind the state as a backdrop that can be exchanged under an instruction, and what the few instructions that read or
write them need of the exchange.
-/

namespace Sys2Proof

open Machine

/-- The parts of the state that almost no instruction reads. -/
structure Backdrop where
  dt : Byte
  st : Byte
  key : Vector Bool 16
  lastKey : Nibble
  stack : List Word

/-- The state's own backdrop. -/
def Machine.State.backdrop (s : State) : Backdrop := ⟨s.dt, s.st, s.key, s.lastKey, s.stack⟩

/-- The state before another backdrop. -/
def Machine.State.withBackdrop (s : State) (b : Backdrop) : State :=
  { s with dt := b.dt, st := b.st, key := b.key, lastKey := b.lastKey, stack := b.stack }

/-- What an instruction makes of a stack store: CALL below the capacity pushes. -/
def Instr.stackAfter (i : Instr) (s : State) (stack : List Word) : List Word :=
  match i with
  | .call _ => if s.sp = s.config.stackCapacity then stack else stack.set s.sp (s.pcPlus 2)
  | _ => stack

/-- What an instruction makes of a backdrop: FX15 and FX18 set their timers, CALL pushes. -/
def Instr.backdropAfter (i : Instr) (s : State) (b : Backdrop) : Backdrop :=
  match i with
  | .ldDtVx x => { b with dt := s.reg x }
  | .ldStVx x => { b with st := s.reg x }
  | .call nnn => { b with stack := Instr.stackAfter (.call nnn) s b.stack }
  | _ => b

/-! ### The operations under an exchange -/

namespace Machine
variable (s : State) (b : Backdrop)

@[simp] theorem State.withBackdrop_sp : (s.withBackdrop b).sp = s.sp := rfl
@[simp] theorem State.withBackdrop_config : (s.withBackdrop b).config = s.config := rfl
@[simp] theorem State.withBackdrop_cell (px : Fin 64) (py : Fin 32) :
    (s.withBackdrop b).cell px py = s.cell px py := rfl

theorem State.skipIf_withBackdrop (c : Bool) : (s.withBackdrop b).skipIf c = (s.skipIf c).withBackdrop b := by
  cases c <;> rfl

theorem State.pressed_withBackdrop (h : b.key = s.key) (v : Byte) : (s.withBackdrop b).pressed v = s.pressed v := by
  simp [State.pressed, State.withBackdrop, h]

theorem State.xorCell_withBackdrop (px : Fin 64) (py : Fin 32) :
    (s.withBackdrop b).xorCell px py = (s.xorCell px py).withBackdrop b := by
  unfold State.xorCell
  by_cases hcell : s.cell px py = true
  · simp only [State.withBackdrop_cell, hcell]
    rfl
  · simp only [State.withBackdrop_cell, hcell]
    rfl

theorem State.drawColumn_withBackdrop (x0 y0 : Byte) (r : Nat) (byte : Byte) (c : Nat) :
    State.drawColumn x0 y0 r byte (s.withBackdrop b) c = (State.drawColumn x0 y0 r byte s c).withBackdrop b := by
  unfold State.drawColumn
  split
  · exact s.xorCell_withBackdrop b _ _
  · rfl

theorem State.drawRow_withBackdrop (x0 y0 : Byte) (r : Nat) :
    State.drawRow x0 y0 (s.withBackdrop b) r = (State.drawRow x0 y0 s r).withBackdrop b :=
  List.foldl_hom (State.withBackdrop · b) fun s c => s.drawColumn_withBackdrop b x0 y0 r _ c

theorem State.drawRows_withBackdrop (x0 y0 : Byte) (n : Nat) :
    State.drawRows x0 y0 n (s.withBackdrop b) = (State.drawRows x0 y0 n s).withBackdrop b :=
  List.foldl_hom (State.withBackdrop · b) fun s r => s.drawRow_withBackdrop b x0 y0 r

theorem State.storeRegs_withBackdrop (n : Nat) :
    State.storeRegs n (s.withBackdrop b) = (State.storeRegs n s).withBackdrop b :=
  List.foldl_hom (State.withBackdrop · b) fun _ _ => rfl

theorem State.loadRegs_withBackdrop (n : Nat) :
    State.loadRegs n (s.withBackdrop b) = (State.loadRegs n s).withBackdrop b :=
  List.foldl_hom (State.withBackdrop · b) fun _ _ => rfl

theorem State.memWriteList_withBackdrop (s : State) (n : Nat) (bytes : List Byte) :
    (s.withBackdrop b).memWriteList n bytes = (s.memWriteList n bytes).withBackdrop b := by
  induction bytes generalizing s n with
  | nil => rfl
  | cons byte rest ih => exact ih (s.memWrite n byte) (n + 1)

/-- A pop reads one entry of the store, and none where it faults. -/
theorem State.popAndJump_withBackdrop (w : Word)
    (h : s.sp ≠ 0 → b.stack.getD (s.sp - 1) 0x0000#16 = s.stackAt (s.sp - 1)) :
    (s.withBackdrop b).popAndJump w = (s.popAndJump w).withBackdrop b := by
  unfold State.popAndJump
  by_cases hsp : s.sp = 0
  · simp only [State.withBackdrop_sp, hsp, ↓reduceIte]
    rfl
  · simp only [State.withBackdrop_sp, hsp, ↓reduceIte, ← h hsp]
    rfl

theorem State.pushAndJump_withBackdrop (w v target : Word) :
    (s.withBackdrop b).pushAndJump w v target = (s.pushAndJump w v target).withBackdrop
      { b with stack := if s.sp = s.config.stackCapacity then b.stack else b.stack.set s.sp v } := by
  unfold State.pushAndJump
  by_cases hsp : s.sp = s.config.stackCapacity
  · simp only [State.withBackdrop_sp, State.withBackdrop_config, hsp, ↓reduceIte]
    rfl
  · simp only [State.withBackdrop_sp, State.withBackdrop_config, hsp, ↓reduceIte]
    rfl

end Machine

/-! ### The instructions under an exchange -/

/-- An exchanged backdrop changes nothing else in the outcome, if the instructions that read it find there what they
read. -/
theorem exec_withBackdrop {i : Instr} {s t : State} (h : exec i s = .next t) (b : Backdrop)
    (hdt : ∀ x, i = .ldVxDt x → b.dt = s.dt) (hkey : ∀ x, i = .skp x ∨ i = .sknp x → b.key = s.key)
    (hstack : s.sp ≠ 0 → b.stack.getD (s.sp - 1) 0x0000#16 = s.stackAt (s.sp - 1)) :
    exec i (s.withBackdrop b) = .next (t.withBackdrop (i.backdropAfter s b)) := by
  cases i <;> obtain rfl := Host.Outcome.next.inj h
  case ret => exact congrArg _ (s.popAndJump_withBackdrop b _ hstack)
  case call => exact congrArg _ (s.pushAndJump_withBackdrop b _ _ _)
  case seImm | sneImm | seReg | sneReg => exact congrArg _ (s.skipIf_withBackdrop b _)
  case skp x =>
    have hpressed := s.pressed_withBackdrop b (hkey x (.inl rfl)) (s.reg x)
    exact congrArg _ ((s.skipIf_withBackdrop b _).trans (congrArg (fun c => (s.skipIf c).withBackdrop b) hpressed))
  case sknp x =>
    have hpressed := s.pressed_withBackdrop b (hkey x (.inr rfl)) (s.reg x)
    exact congrArg _ ((s.skipIf_withBackdrop b _).trans (congrArg (fun c => (s.skipIf !c).withBackdrop b) hpressed))
  case ldVxDt x =>
    rw [← hdt x rfl]
    rfl
  case drw =>
    exact congrArg (Host.Outcome.next ∘ State.advance) (State.drawRows_withBackdrop (s.setFlag 0x00#8) b _ _ _)
  case ldBVx => exact congrArg (Host.Outcome.next ∘ State.advance) (State.memWriteList_withBackdrop b s _ _)
  case ldMemVx => exact congrArg (Host.Outcome.next ∘ State.advance) (s.storeRegs_withBackdrop b _)
  case ldVxMem => exact congrArg (Host.Outcome.next ∘ State.advance) (s.loadRegs_withBackdrop b _)
  all_goals rfl

/-- What an instruction leaves of its own backdrop. -/
theorem exec_backdrop {i : Instr} {s t : State} (h : exec i s = .next t) :
    t.backdrop = i.backdropAfter s s.backdrop := by
  have hown := exec_withBackdrop h s.backdrop (fun _ _ => rfl) (fun _ _ => rfl) (fun _ => rfl)
  have hsame : t = t.withBackdrop (i.backdropAfter s s.backdrop) := Host.Outcome.next.inj (h.symm.trans hown)
  exact congrArg State.backdrop hsame

/-- An exchanged backdrop, with what the instruction makes of it given beside it. -/
theorem exec_exchanged {i : Instr} {s t : State} (h : exec i s = .next t) {b b' : Backdrop}
    (hafter : i.backdropAfter s b = b') (hdt : ∀ x, i = .ldVxDt x → b.dt = s.dt)
    (hkey : ∀ x, i = .skp x ∨ i = .sknp x → b.key = s.key)
    (hstack : s.sp ≠ 0 → b.stack.getD (s.sp - 1) 0x0000#16 = s.stackAt (s.sp - 1)) :
    exec i (s.withBackdrop b) = .next (t.withBackdrop b') :=
  hafter ▸ exec_withBackdrop h b hdt hkey hstack

section
variable (i : Instr) (s : State) (b : Backdrop)

theorem Instr.backdropAfter_st (st : Byte) :
    ∃ st', i.backdropAfter s { b with st := st } = { i.backdropAfter s b with st := st' } := by
  cases i with
  | ldStVx x => exact ⟨s.reg x, rfl⟩
  | _ => exact ⟨st, rfl⟩

theorem Instr.backdropAfter_dt (dt : Byte) :
    ∃ dt', i.backdropAfter s { b with dt := dt } = { i.backdropAfter s b with dt := dt' } := by
  cases i with
  | ldDtVx x => exact ⟨s.reg x, rfl⟩
  | _ => exact ⟨dt, rfl⟩

theorem Instr.backdropAfter_lastKey (k : Nibble) :
    i.backdropAfter s { b with lastKey := k } = { i.backdropAfter s b with lastKey := k } := by
  cases i <;> rfl

theorem Instr.backdropAfter_key (key : Vector Bool 16) :
    i.backdropAfter s { b with key := key } = { i.backdropAfter s b with key := key } := by
  cases i <;> rfl

theorem Instr.backdropAfter_stack (stack : List Word) :
    i.backdropAfter s { b with stack := stack } = { i.backdropAfter s b with stack := i.stackAfter s stack } := by
  cases i <;> rfl

end

/-- Settles O16: each clause exchanges one part of the backdrop. -/
theorem timerAndKeyReadersAreListed : Obligations.TimerAndKeyReadersAreListed := by
  unfold Obligations.TimerAndKeyReadersAreListed
  intro i s t h
  refine ⟨fun st => ?_, fun k => ?_, fun hi dt => ?_, fun hi key => ?_⟩
  · obtain ⟨st', hafter⟩ := i.backdropAfter_st s s.backdrop st
    rw [← exec_backdrop h] at hafter
    exact ⟨st', exec_exchanged h hafter (fun _ _ => rfl) (fun _ _ => rfl) fun _ => rfl⟩
  · have hafter := i.backdropAfter_lastKey s s.backdrop k
    rw [← exec_backdrop h] at hafter
    exact exec_exchanged h hafter (fun _ _ => rfl) (fun _ _ => rfl) fun _ => rfl
  · obtain ⟨dt', hafter⟩ := i.backdropAfter_dt s s.backdrop dt
    rw [← exec_backdrop h] at hafter
    exact ⟨dt', exec_exchanged h hafter (fun x hx => absurd hx (hi x)) (fun _ _ => rfl) fun _ => rfl⟩
  · have hafter := i.backdropAfter_key s s.backdrop key
    rw [← exec_backdrop h] at hafter
    exact exec_exchanged h hafter (fun _ _ => rfl) (fun x hx => absurd hx (not_or.mpr (hi x))) fun _ => rfl

/-! ### Free stack entries -/

/-- An instruction pushes one entry and counts it, or leaves the store and does not count up. -/
theorem exec_stack_cases {i : Instr} {s t : State} (h : exec i s = .next t) :
    (t.sp ≤ s.sp ∧ ∀ stack, i.stackAfter s stack = stack) ∨
    (t.sp = s.sp + 1 ∧ ∀ stack, i.stackAfter s stack = stack.set s.sp (s.pcPlus 2)) := by
  cases i with
  | ret =>
    by_cases hsp : s.sp = 0
    · obtain rfl := Host.Outcome.next.inj (h.symm.trans (exec_ret_empty hsp))
      exact .inl ⟨le_rfl, fun _ => rfl⟩
    · obtain rfl := Host.Outcome.next.inj (h.symm.trans (exec_ret_entry hsp))
      exact .inl ⟨Nat.sub_le _ 1, fun _ => rfl⟩
  | call nnn =>
    by_cases hsp : s.sp = s.config.stackCapacity
    · obtain rfl := Host.Outcome.next.inj (h.symm.trans (exec_call_full nnn hsp))
      exact .inl ⟨le_rfl, fun _ => if_pos hsp⟩
    · obtain rfl := Host.Outcome.next.inj (h.symm.trans (exec_call_room nnn hsp))
      exact .inr ⟨rfl, fun _ => if_neg hsp⟩
  | _ =>
    have hkept : Part.Same s t .stack := (exec_frame h).1 .stack (by simp [Instr.partsWritten])
    exact .inl ⟨hkept.2.le, fun _ => rfl⟩

/-- Settles O17: the exchanged store agrees below SP, a pushed entry is the same in both, and a pop only counts down. -/
theorem freeStackEntriesAreInvisible : Obligations.FreeStackEntriesAreInvisible := by
  unfold Obligations.FreeStackEntriesAreInvisible
  intro i s s' t ⟨hfields, hlength, hagree⟩ h
  have hafter := i.backdropAfter_stack s s.backdrop s'.stack
  rw [← exec_backdrop h] at hafter
  have htop : s.sp ≠ 0 → s'.stack.getD (s.sp - 1) 0x0000#16 = s.stackAt (s.sp - 1) := fun hsp =>
    hagree _ (Nat.sub_one_lt hsp)
  have hnext := exec_exchanged h hafter (fun _ _ => rfl) (fun _ _ => rfl) htop
  have hstack : t.stack = i.stackAfter s s.stack :=
    (congrArg Backdrop.stack (exec_backdrop h)).trans
      (congrArg Backdrop.stack (i.backdropAfter_stack s s.backdrop s.stack))
  rw [hfields]
  refine ⟨_, hnext, rfl, ?_, ?_⟩
  · change (i.stackAfter s s'.stack).length = t.stack.length
    obtain ⟨-, hsame⟩ | ⟨-, hpush⟩ := exec_stack_cases h
    · rw [hstack, hsame, hsame, hlength]
    · simp [hstack, hpush, hlength]
  · intro k hk
    change (i.stackAfter s s'.stack).getD k 0x0000#16 = t.stack.getD k 0x0000#16
    obtain ⟨hsp, hsame⟩ | ⟨hsp, hpush⟩ := exec_stack_cases h
    · rw [hstack, hsame, hsame]
      exact hagree k (hk.trans_le hsp)
    · rw [hstack, hpush, hpush]
      by_cases hnew : k = s.sp
      · subst hnew
        simp [List.getD_eq_getElem?_getD, List.getElem?_set, hlength]
      · rw [getD_set_of_ne _ _ _ hnew, getD_set_of_ne _ _ _ hnew]
        exact hagree k (by omega)

end Sys2Proof
end

section
/-!
SUPPORT. The flag instructions (41_register_alu.md R137 to R143) and the random byte (R145): the flag bytes as the spec
writes them, the two writes that each instruction runs, and what the pair of writes does.
-/

namespace Sys2Proof

open Machine

/-! ### The flag bytes -/

@[simp] theorem Machine.flagByte_decide (c : Prop) [Decidable c] :
    flagByte (decide c) = if c then 0x01#8 else 0x00#8 := by simp [flagByte]

theorem Machine.carryFlag_eq (a b : Byte) : carryFlag a b = if a.toNat + b.toNat > 255 then 0x01#8 else 0x00#8 :=
  flagByte_decide _

theorem Machine.greaterFlag_eq (a b : Byte) : greaterFlag a b = if a.toNat > b.toNat then 0x01#8 else 0x00#8 :=
  flagByte_decide _

theorem Machine.lowBitFlag_toNat (a : Byte) : (lowBitFlag a).toNat = a.toNat % 2 := by
  rw [lowBitFlag, BitVec.toNat_and]
  exact Nat.and_one_is_mod _

/-- The low bit itself is shifted out. -/
theorem Machine.lowBitFlag_shift (a : Byte) : lowBitFlag a >>> 1 = 0x00#8 := by
  apply BitVec.eq_of_toNat_eq
  rw [BitVec.toNat_ushiftRight, lowBitFlag_toNat, Nat.shiftRight_eq_div_pow]
  exact Nat.div_eq_of_lt (Nat.mod_lt _ (by decide))

theorem Machine.highBitFlag_eq (c : Config) (a : Byte) :
    highBitFlag c a = if a.toNat < 128 then 0x00#8 else if c.shlFlagNormalised then 0x01#8 else 0x80#8 := by
  have hmask : a &&& 0x80#8 = if a.toNat < 128 then 0x00#8 else 0x80#8 := by revert a; decide
  have hshift : a >>> 7 = if a.toNat < 128 then 0x00#8 else 0x01#8 := by revert a; decide
  rw [highBitFlag, hmask, hshift]
  split <;> split <;> rfl

/-! ### The two writes of each instruction -/

theorem exec_addReg (x y : Reg) (s : State) :
    exec (.addReg x y) s =
      .next ((s.setFlag (carryFlag (s.reg x) (s.reg y))).writeAndAdvance x (s.reg x + s.reg y)) := by
  rw [← add8_eq]
  rfl

theorem exec_sub (x y : Reg) (s : State) :
    exec (.sub x y) s =
      .next ((s.setFlag (greaterFlag (s.reg x) (s.reg y))).writeAndAdvance x
        ((s.setFlag (greaterFlag (s.reg x) (s.reg y))).reg x -
          (s.setFlag (greaterFlag (s.reg x) (s.reg y))).reg y)) := by
  rw [← sub8_eq]
  rfl

theorem exec_subn (x y : Reg) (s : State) :
    exec (.subn x y) s =
      .next ((s.setFlag (greaterFlag (s.reg y) (s.reg x))).writeAndAdvance x
        ((s.setFlag (greaterFlag (s.reg y) (s.reg x))).reg y -
          (s.setFlag (greaterFlag (s.reg y) (s.reg x))).reg x)) := by
  rw [← sub8_eq]
  rfl

theorem exec_shr (x y : Reg) (s : State) :
    exec (.shr x y) s =
      .next ((s.setFlag (lowBitFlag (s.reg x))).writeAndAdvance x
        ((s.setFlag (lowBitFlag (s.reg x))).reg x >>> 1)) := by
  rw [← shr8_eq]
  rfl

theorem exec_shl (x y : Reg) (s : State) :
    exec (.shl x y) s =
      .next ((s.setFlag (highBitFlag s.config (s.reg x))).writeAndAdvance x
        ((s.setFlag (highBitFlag s.config (s.reg x))).reg x <<< 1)) := by
  rw [← shl8_eq]
  rfl

theorem exec_rnd (x : Reg) (nn : Byte) (s : State) :
    exec (.rnd x nn) s = .next (s.drawn.writeAndAdvance x (Config.freeByte s.draws &&& nn)) := rfl

/-! ### What the pair of writes does -/

/-- R22: the flag register is V[0xF]. -/
theorem Machine.State.setFlag_reg (s : State) (flag : Byte) (r : Reg) :
    (s.setFlag flag).reg r = if r = 0xF#4 then flag else s.reg r := s.reg_setFlag r flag

/-- The result replaces the flag where VF is the destination (R130, R143). -/
theorem Machine.State.setFlag_writeAndAdvance_reg (s : State) (flag : Byte) (x r : Reg) (b : Byte) :
    ((s.setFlag flag).writeAndAdvance x b).reg r = if r = x then b else if r = 0xF#4 then flag else s.reg r := by
  rw [State.writeAndAdvance_reg, State.setFlag_reg]

/-- The destination takes the result, VF the flag where it is not the destination, PC goes to the next word, and nothing
else changes. -/
theorem Machine.State.setFlag_writeAndAdvance_effect (s : State) (flag : Byte) (x : Reg) (b : Byte) :
    ((s.setFlag flag).writeAndAdvance x b).reg x = b ∧
    (x ≠ 0xF#4 → ((s.setFlag flag).writeAndAdvance x b).reg 0xF#4 = flag) ∧
    ((s.setFlag flag).writeAndAdvance x b).pc = s.pc + 2#16 ∧
    OnlyChanges [.pc] [x, 0xF#4] s ((s.setFlag flag).writeAndAdvance x b) := by
  refine ⟨?_, fun hx => ?_, State.writeAndAdvance_pc _ x b,
    (s.setFlag_writeAndAdvance_frame flag x b).mono (List.Subset.refl _) (by simp [regF])⟩
  · rw [State.setFlag_writeAndAdvance_reg, if_pos rfl]
  · rw [State.setFlag_writeAndAdvance_reg, if_neg hx.symm, if_pos rfl]

/-! ### The obligations -/

/-- Settles O29: the sum is formed before the flag is written. -/
theorem addRegister : Obligations.AddRegister := by
  unfold Obligations.AddRegister
  refine fun x y => ⟨decode_addReg x y, fun s => ⟨_, exec_addReg x y s, ?_⟩⟩
  obtain ⟨hreg, hflag, hpc, hframe⟩ :=
    s.setFlag_writeAndAdvance_effect (carryFlag (s.reg x) (s.reg y)) x (s.reg x + s.reg y)
  exact ⟨by rw [hreg, BitVec.toNat_add], fun hx => (hflag hx).trans (carryFlag_eq _ _), hpc, hframe⟩

/-- Settles O30: the difference reads the registers after the flag is written. -/
theorem subRegister : Obligations.SubRegister := by
  unfold Obligations.SubRegister
  refine fun x y => ⟨decode_sub x y, fun s => ⟨_, exec_sub x y s, fun f hf => ?_⟩⟩
  rw [← greaterFlag_eq] at hf
  subst hf
  obtain ⟨hreg, hrest⟩ := s.setFlag_writeAndAdvance_effect (greaterFlag (s.reg x) (s.reg y)) x _
  exact ⟨by rw [hreg, State.setFlag_reg, State.setFlag_reg], hrest⟩

/-- Settles O31: as SUB, with the operands exchanged. -/
theorem subnRegister : Obligations.SubnRegister := by
  unfold Obligations.SubnRegister
  refine fun x y => ⟨decode_subn x y, fun s => ⟨_, exec_subn x y s, fun f hf => ?_⟩⟩
  rw [← greaterFlag_eq] at hf
  subst hf
  obtain ⟨hreg, hrest⟩ := s.setFlag_writeAndAdvance_effect (greaterFlag (s.reg y) (s.reg x)) x _
  exact ⟨by rw [hreg, State.setFlag_reg, State.setFlag_reg], hrest⟩

/-- Settles O32: with X = F the byte that is shifted is the flag, a single bit. -/
theorem shiftRight : Obligations.ShiftRight := by
  unfold Obligations.ShiftRight
  refine fun x y => ⟨decode_shr x y, fun s => ⟨_, exec_shr x y s, ?_⟩⟩
  obtain ⟨hreg, hflag, hpc, hframe⟩ := s.setFlag_writeAndAdvance_effect (lowBitFlag (s.reg x)) x
    ((s.setFlag (lowBitFlag (s.reg x))).reg x >>> 1)
  refine ⟨fun hx => ⟨?_, ?_⟩, fun hx => ?_, hpc, hframe⟩
  · rw [hreg, State.setFlag_reg, if_neg hx, BitVec.toNat_ushiftRight, Nat.shiftRight_eq_div_pow]
  · rw [hflag hx, lowBitFlag_toNat]
  · subst hx
    rw [hreg, State.setFlag_reg, if_pos rfl, lowBitFlag_shift]

/-- Settles O33: with X = F the byte that is doubled is the flag. -/
theorem shiftLeft : Obligations.ShiftLeft := by
  unfold Obligations.ShiftLeft
  refine fun x y => ⟨decode_shl x y, fun s => ⟨_, exec_shl x y s, fun f hf => ?_⟩⟩
  rw [← highBitFlag_eq] at hf
  subst hf
  obtain ⟨hreg, hflag, hpc, hframe⟩ := s.setFlag_writeAndAdvance_effect (highBitFlag s.config (s.reg x)) x
    ((s.setFlag (highBitFlag s.config (s.reg x))).reg x <<< 1)
  have hdouble : ∀ b : Byte, (b <<< 1).toNat = 2 * b.toNat % 256 := fun b => by
    rw [BitVec.toNat_shiftLeft, Nat.shiftLeft_eq, Nat.mul_comm]
  refine ⟨fun hx => ⟨?_, hflag hx⟩, fun hx => ?_, hpc, hframe⟩
  · rw [hreg, State.setFlag_reg, if_neg hx, hdouble]
  · subst hx
    rw [hreg, State.setFlag_reg, if_pos rfl, hdouble]

/-- Settles O34: each column of the table is one of the five pairs of writes with VF in an operand's place. -/
theorem flagOperandOutcomes : Obligations.FlagOperandOutcomes := by
  unfold Obligations.FlagOperandOutcomes
  rintro s r hr hform a b rfl rfl
  have hlow : ∀ v : Byte, lowBitFlag v = v &&& 0x01#8 := fun _ => rfl
  have hhigh : ∀ v : Byte, highBitFlag s.config v = v &&& 0x80#8 := fun v => by simp [highBitFlag, hform]
  have hlostLow : ∀ v : Byte, (v &&& 0x01#8) >>> 1 = 0x00#8 := lowBitFlag_shift
  have hlostHigh : ∀ v : Byte, (v &&& 0x80#8) <<< 1 = 0x00#8 := by decide
  refine ⟨⟨_, exec_addReg _ _ s, ?_⟩, ⟨_, exec_sub _ _ s, ?_⟩, ⟨_, exec_shr _ _ s, ?_⟩, ⟨_, exec_subn _ _ s, ?_⟩,
    ⟨_, exec_shl _ _ s, ?_⟩, ⟨_, exec_addReg _ _ s, ?_⟩, ⟨_, exec_sub _ _ s, ?_⟩, ⟨_, exec_shr _ _ s, ?_⟩,
    ⟨_, exec_subn _ _ s, ?_⟩, ⟨_, exec_shl _ _ s, ?_⟩, ⟨_, exec_addReg _ _ s, ?_⟩, ⟨_, exec_sub _ _ s, ?_⟩,
    ⟨_, exec_shr _ _ s, ?_⟩, ⟨_, exec_subn _ _ s, ?_⟩, ⟨_, exec_shl _ _ s, ?_⟩⟩
  all_goals
    simp only [State.setFlag_writeAndAdvance_reg, State.setFlag_reg, carryFlag_eq, greaterFlag_eq, hlow, hhigh]
    simp [hr, hr.symm, hlostLow, hlostHigh]

/-- Settles O35: the draw is masked as it is written, so the mask's other bits meet no bit of it. -/
theorem randomIsMaskedDraw : Obligations.RandomIsMaskedDraw := by
  unfold Obligations.RandomIsMaskedDraw
  refine fun x nn => ⟨decode_rnd x nn, fun s => ⟨_, exec_rnd x nn s, ?_⟩⟩
  obtain ⟨hreg, hpc, hframe⟩ := s.drawn.writeAndAdvance_effect x (Config.freeByte s.draws &&& nn)
  refine ⟨hreg, rfl, ?_, hpc, (s.drawn_frame.trans hframe).mono (by simp) (by simp)⟩
  rw [hreg, BitVec.and_assoc]
  simp

end Sys2Proof
end

section
/-!
SUPPORT. DRW (42_display.md R170 to R174): the two loops are one pass of `xorCell` over the list of cells that the set
sprite bits land on; no cell stands in that list twice, so the pass turns over each of them once.
-/

namespace Sys2Proof

open Machine

theorem exec_drw (x y : Reg) (n : Nibble) (s : State) :
    exec (.drw x y n) s = .next (State.drawRows (s.reg x) (s.reg y) n.toNat (s.setFlag 0x00#8)).advance := rfl

namespace Machine

/-! ### The cells of a sprite -/

/-- The cells that the set bits of sprite row r land on, left to right. -/
def State.rowCells (s : State) (x0 y0 : Byte) (r : Nat) : List (Fin 64 × Fin 32) :=
  ((List.range 8).filter (spriteBit (s.memRead (s.indexed r)))).map fun c => (pixelColumn x0 c, pixelRow y0 r)

/-- The cells that the set bits of the first n sprite rows land on, in the order of the loops. -/
def State.spriteCells (s : State) (x0 y0 : Byte) (n : Nat) : List (Fin 64 × Fin 32) :=
  (List.range n).flatMap (s.rowCells x0 y0)

/-- The cells are turned over one after the other, VF telling of those that were on. -/
def State.xorCells (s : State) (cells : List (Fin 64 × Fin 32)) : State :=
  cells.foldl (fun s p => s.xorCell p.1 p.2) s

section
variable (s : State) (x0 y0 : Byte)

theorem State.mem_rowCells_iff (r : Nat) (px : Fin 64) (py : Fin 32) :
    (px, py) ∈ s.rowCells x0 y0 r ↔
      ∃ c < 8, px.val = (x0.toNat + c) % 64 ∧ py.val = (y0.toNat + r) % 32 ∧
        (s.memRead (s.i.toNat + r)).getLsbD (7 - c) = true := by
  simp only [State.rowCells, List.mem_map, List.mem_filter, List.mem_range, Prod.mk.injEq, Fin.ext_iff]
  constructor
  · rintro ⟨c, ⟨hc, hbit⟩, hx, hy⟩
    exact ⟨c, hc, hx.symm, hy.symm, hbit⟩
  · rintro ⟨c, hc, hx, hy, hbit⟩
    exact ⟨c, ⟨hc, hbit⟩, hx.symm, hy.symm⟩

theorem State.mem_spriteCells_iff (n : Nibble) (px : Fin 64) (py : Fin 32) :
    (px, py) ∈ s.spriteCells x0 y0 n.toNat ↔ SpriteSets s x0 y0 n px py := by
  simp only [State.spriteCells, List.mem_flatMap, List.mem_range, State.mem_rowCells_iff, SpriteSets]
  constructor
  · rintro ⟨r, hr, c, hc, hcell⟩
    exact ⟨r, c, hr, hc, hcell⟩
  · rintro ⟨r, c, hr, hc, hcell⟩
    exact ⟨r, hr, c, hc, hcell⟩

/-- Eight columns in a row of 64 do not meet. -/
theorem State.rowCells_nodup (r : Nat) : (s.rowCells x0 y0 r).Nodup := by
  refine (List.nodup_range.filter _).map_on fun c hc c' hc' hcell => ?_
  have hcol : (x0.toNat + c) % 64 = (x0.toNat + c') % 64 := congrArg (·.1.val) hcell
  have hc := List.mem_range.mp (List.mem_of_mem_filter hc)
  have hc' := List.mem_range.mp (List.mem_of_mem_filter hc')
  omega

/-- Rows of a sprite of at most 32 do not meet. -/
theorem State.spriteCells_nodup {n : Nat} (hn : n ≤ 32) : (s.spriteCells x0 y0 n).Nodup := by
  refine List.nodup_flatMap.mpr ⟨fun r _ => s.rowCells_nodup x0 y0 r, ?_⟩
  refine List.nodup_range.pairwise_of_forall_ne fun r hr r' hr' hne => ?_
  rintro ⟨px, py⟩ hcell hcell'
  obtain ⟨-, -, -, hrow, -⟩ := (s.mem_rowCells_iff x0 y0 r px py).mp hcell
  obtain ⟨-, -, -, hrow', -⟩ := (s.mem_rowCells_iff x0 y0 r' px py).mp hcell'
  have hr := List.mem_range.mp hr
  have hr' := List.mem_range.mp hr'
  omega

/-! ### The loops are one pass over the cells -/

theorem State.drawRow_eq_xorCells (r : Nat) : State.drawRow x0 y0 s r = s.xorCells (s.rowCells x0 y0 r) := by
  rw [State.xorCells, State.rowCells, List.foldl_map, List.foldl_filter]
  rfl

/-- A drawn row moves neither I nor a sprite byte. -/
theorem State.rowCells_drawRow (r : Nat) : (State.drawRow x0 y0 s r).rowCells x0 y0 = s.rowCells x0 y0 := by
  obtain ⟨hkept, -⟩ := s.drawRow_frame x0 y0 r
  have hmem : ∀ a, (State.drawRow x0 y0 s r).memRead a = s.memRead a := hkept .mem (by simp)
  have hi : (State.drawRow x0 y0 s r).i = s.i := hkept .i (by simp)
  funext k
  rw [State.rowCells, State.rowCells, State.indexed, State.indexed, hi, hmem]

theorem State.drawRowList_eq_xorCells (rs : List Nat) (s : State) :
    rs.foldl (State.drawRow x0 y0) s = s.xorCells (rs.flatMap (s.rowCells x0 y0)) := by
  induction rs generalizing s with
  | nil => rfl
  | cons r rest ih =>
    rw [List.foldl_cons, ih, s.rowCells_drawRow, s.drawRow_eq_xorCells, List.flatMap_cons]
    exact List.foldl_append.symm

theorem State.drawRows_eq_xorCells (n : Nat) :
    State.drawRows x0 y0 n s = s.xorCells (s.spriteCells x0 y0 n) :=
  State.drawRowList_eq_xorCells x0 y0 (List.range n) s

end

/-! ### What the pass does -/

theorem State.xorCells_cons (s : State) (p : Fin 64 × Fin 32) (cells : List (Fin 64 × Fin 32)) :
    s.xorCells (p :: cells) = (s.xorCell p.1 p.2).xorCells cells := rfl

/-- Turning over one cell leaves every other. -/
theorem State.xorCell_cell_of_ne (s : State) {p q : Fin 64 × Fin 32} (h : q ≠ p) :
    (s.xorCell p.1 p.2).cell q.1 q.2 = s.cell q.1 q.2 := by
  rw [State.xorCell_cell, if_neg fun heq => h (Prod.ext heq.1 heq.2)]

theorem State.xorCells_cell {cells : List (Fin 64 × Fin 32)} (hnodup : cells.Nodup) (s : State)
    (q : Fin 64 × Fin 32) :
    (s.xorCells cells).cell q.1 q.2 = if q ∈ cells then !s.cell q.1 q.2 else s.cell q.1 q.2 := by
  induction cells generalizing s with
  | nil => rfl
  | cons p rest ih =>
    obtain ⟨hp, hrest⟩ := List.nodup_cons.mp hnodup
    rw [State.xorCells_cons, ih hrest]
    by_cases hq : q = p
    · subst hq
      simp [hp]
    · simp [s.xorCell_cell_of_ne hq, hq]

theorem State.xorCells_flag {cells : List (Fin 64 × Fin 32)} (hnodup : cells.Nodup) (s : State) :
    (s.xorCells cells).reg 0xF#4 = if ∃ p ∈ cells, s.cell p.1 p.2 = true then 0x01#8 else s.reg 0xF#4 := by
  induction cells generalizing s with
  | nil => simp [State.xorCells]
  | cons p rest ih =>
    obtain ⟨hp, hrest⟩ := List.nodup_cons.mp hnodup
    have hothers : (∃ q ∈ rest, (s.xorCell p.1 p.2).cell q.1 q.2 = true) ↔ ∃ q ∈ rest, s.cell q.1 q.2 = true :=
      exists_congr fun q => and_congr_right fun hq => by rw [s.xorCell_cell_of_ne (ne_of_mem_of_not_mem hq hp)]
    have hfirst : (s.xorCell p.1 p.2).reg 0xF#4 = if s.cell p.1 p.2 = true then 0x01#8 else s.reg 0xF#4 := by
      simp [regF, collisionFlag]
    rw [State.xorCells_cons, ih hrest, hfirst]
    simp only [hothers, List.exists_mem_cons_iff]
    by_cases hon : s.cell p.1 p.2 = true <;> simp [hon]

/-! ### The loops, on the cells and on VF -/

section
variable (s : State) (x0 y0 : Byte) (n : Nibble)

theorem State.spriteCells_nodup_of_nibble : (s.spriteCells x0 y0 n.toNat).Nodup :=
  s.spriteCells_nodup x0 y0 (n.isLt.le.trans (by decide))

theorem State.drawRows_cell_of_sets {px : Fin 64} {py : Fin 32} (h : SpriteSets s x0 y0 n px py) :
    (State.drawRows x0 y0 n.toNat s).cell px py = !s.cell px py := by
  rw [State.drawRows_eq_xorCells]
  exact (State.xorCells_cell (s.spriteCells_nodup_of_nibble x0 y0 n) s (px, py)).trans
    (if_pos ((s.mem_spriteCells_iff x0 y0 n px py).mpr h))

theorem State.drawRows_cell_of_not_sets {px : Fin 64} {py : Fin 32} (h : ¬SpriteSets s x0 y0 n px py) :
    (State.drawRows x0 y0 n.toNat s).cell px py = s.cell px py := by
  rw [State.drawRows_eq_xorCells]
  exact (State.xorCells_cell (s.spriteCells_nodup_of_nibble x0 y0 n) s (px, py)).trans
    (if_neg (mt (s.mem_spriteCells_iff x0 y0 n px py).mp h))

theorem State.drawRows_flag_of_collision {px : Fin 64} {py : Fin 32} (h : SpriteSets s x0 y0 n px py)
    (hon : s.cell px py = true) : (State.drawRows x0 y0 n.toNat s).reg 0xF#4 = 0x01#8 := by
  rw [State.drawRows_eq_xorCells, State.xorCells_flag (s.spriteCells_nodup_of_nibble x0 y0 n)]
  exact if_pos ⟨(px, py), (s.mem_spriteCells_iff x0 y0 n px py).mpr h, hon⟩

theorem State.drawRows_flag_of_none (h : ∀ px py, SpriteSets s x0 y0 n px py → s.cell px py = false) :
    (State.drawRows x0 y0 n.toNat s).reg 0xF#4 = s.reg 0xF#4 := by
  rw [State.drawRows_eq_xorCells, State.xorCells_flag (s.spriteCells_nodup_of_nibble x0 y0 n)]
  refine if_neg fun ⟨(px, py), hcell, hon⟩ => ?_
  have hoff := h px py ((s.mem_spriteCells_iff x0 y0 n px py).mp hcell)
  exact Bool.noConfusion (hoff.symm.trans hon)

end

end Machine

/-! ### The obligations -/

/-- Settles O37: VF is cleared, the pass runs, PC advances. -/
theorem drawXorsTheSprite : Obligations.DrawXorsTheSprite := by
  unfold Obligations.DrawXorsTheSprite
  refine fun x y n => ⟨decode_drw x y n, fun s => ⟨_, exec_drw x y n s, ?_, ?_, ?_, ?_, ?_, ?_⟩⟩
  · exact fun px py => State.drawRows_cell_of_sets (s.setFlag 0x00#8) _ _ n
  · exact fun px py => State.drawRows_cell_of_not_sets (s.setFlag 0x00#8) _ _ n
  · exact fun ⟨px, py, hset, hon⟩ => State.drawRows_flag_of_collision (s.setFlag 0x00#8) _ _ n hset hon
  · exact fun hnone => (State.drawRows_flag_of_none (s.setFlag 0x00#8) _ _ n hnone).trans
      (by rw [State.setFlag_reg, if_pos rfl])
  · exact State.advance_pc_of_same
  · exact (exec_frame (exec_drw x y n s)).mono (List.Subset.refl _) (List.Subset.refl _)

/-- The sprite's cells depend on memory, I and the corner it is drawn from only. -/
theorem spriteSets_congr {s t : State} (hmem : ∀ a, t.memRead a = s.memRead a) (hi : t.i = s.i) (x0 y0 : Byte)
    (n : Nibble) (px : Fin 64) (py : Fin 32) : SpriteSets t x0 y0 n px py ↔ SpriteSets s x0 y0 n px py := by
  simp only [SpriteSets, hmem, hi]

/-- Settles O38: the second draw meets the same sprite, and finds each of its cells turned over. -/
theorem drawTwiceRestores : Obligations.DrawTwiceRestores := by
  unfold Obligations.DrawTwiceRestores
  intro x y n s hx hy
  obtain ⟨-, hdraw⟩ := drawXorsTheSprite x y n
  obtain ⟨t, hfirst, htset, htkept, -, -, -, hframe, hregs⟩ := hdraw s
  obtain ⟨u, hsecond, huset, hukept, hcollide, hnone, -⟩ := hdraw t
  have hsprite := spriteSets_congr (hframe .mem (by simp)) (hframe .i (by simp)) (s.reg x) (s.reg y) n
  rw [hregs x (by simpa using hx), hregs y (by simpa using hy)] at huset hukept hcollide hnone
  simp only [hsprite] at huset hukept hcollide hnone
  refine ⟨t, u, hfirst, hsecond, fun px py => ?_, fun hflag => ?_, fun ⟨px, py, hset, hoff⟩ => ?_⟩
  · by_cases hset : SpriteSets s (s.reg x) (s.reg y) n px py
    · rw [huset px py hset, htset px py hset, Bool.not_not]
    · rw [hukept px py hset, htkept px py hset]
  · by_contra hall
    have hzero : u.reg 0xF#4 = 0x00#8 := hnone fun px py hset => by
      have hon : s.cell px py = true := Bool.of_not_eq_false fun hoff => hall ⟨px, py, hset, hoff⟩
      rw [htset px py hset, hon, Bool.not_true]
    exact absurd (hflag.symm.trans hzero) (by decide)
  · exact hcollide ⟨px, py, hset, by rw [htset px py hset, hoff, Bool.not_false]⟩

end Sys2Proof
end

section
/-!
SUPPORT. The key skips, the key wait and the host's actions (43_keypad_timers.md R190 to R200; 60_exceptions.md R252 to
R263): what each one does, and what a run of actions keeps.
-/

namespace Sys2Proof

open Machine

/-! ### The key skips -/

section
variable (x : Reg) (s : State)

theorem exec_skp : exec (.skp x) s = .next (s.skipIf (s.pressed (s.reg x))) := rfl

theorem exec_sknp : exec (.sknp x) s = .next (s.skipIf (!s.pressed (s.reg x))) := rfl

theorem exec_ldVxK : exec (.ldVxK x) s = .next (s.setStatus (.waitKey x)) := rfl

end

theorem Machine.State.pressed_of_key (s : State) {b : Byte} {k : Fin 16} (h : b.toNat = k.val) :
    s.pressed b = s.key.get k := by
  simp [State.pressed, h, Vector.get_eq_getElem]

theorem Machine.State.pressed_of_no_key (s : State) {b : Byte} (h : 16 ≤ b.toNat) : s.pressed b = false :=
  dif_neg (Nat.not_lt.mpr h)

/-- Settles O39: a value below 16 names a key, a greater one none. -/
theorem skipOnKey : Obligations.SkipOnKey := by
  unfold Obligations.SkipOnKey
  refine fun x => ⟨decode_skp x, decode_sknp x, fun s =>
    ⟨⟨_, exec_skp x s, s.skipIf_frame _, fun k hk => ?_⟩, ⟨_, exec_sknp x s, s.skipIf_frame _, fun k hk => ?_⟩,
      fun hnone => ⟨⟨_, exec_skp x s, ?_⟩, ⟨_, exec_sknp x s, ?_⟩⟩⟩⟩
  · simp [s.pressed_of_key hk]
  · simp [s.pressed_of_key hk]
  · simp [s.pressed_of_no_key hnone]
  · simp [s.pressed_of_no_key hnone]

/-! ### KeyPress -/

section
variable {s : State}

/-- R195: the key goes to LASTKEY and the waiting register, and the wait is over. -/
theorem Machine.State.keyPress_of_waitKey {x : Reg} (h : s.status = .waitKey x) (k : Nibble) :
    s.keyPress k = ({ s with lastKey := k }.writeAndAdvance x (k.setWidth 8)).setStatus .run := by
  simp [State.keyPress, h, State.writeAndAdvance]

theorem Machine.State.keyPress_of_not_waiting (h : ∀ x, s.status ≠ .waitKey x) (k : Nibble) : s.keyPress k = s := by
  cases hstatus : s.status with
  | waitKey x => exact absurd hstatus (h x)
  | run | fault => simp [State.keyPress, hstatus]

theorem Machine.State.setLastKey_frame (s : State) (k : Nibble) :
    OnlyChanges [.lastKey] [] s { s with lastKey := k } :=
  ⟨fun p hp => by cases p <;> simp_all [Part.Same, State.memRead], fun _ _ => rfl⟩

end

/-- Settles O42: both halves of FX0A. -/
theorem keyWaitThenKeyPress : Obligations.KeyWaitThenKeyPress := by
  unfold Obligations.KeyWaitThenKeyPress
  refine fun x => ⟨decode_ldVxK x, fun s => ⟨_, exec_ldVxK x s, rfl, s.setStatus_frame _⟩, fun s k hwait => ?_⟩
  rw [s.keyPress_of_waitKey hwait]
  obtain ⟨hreg, hpc, hframe⟩ := State.writeAndAdvance_effect { s with lastKey := k } x (k.setWidth 8)
  refine ⟨rfl, ?_, hpc, rfl, ((s.setLastKey_frame k).trans hframe).trans (State.setStatus_frame _ _)⟩
  rw [State.setStatus_reg, hreg]
  exact BitVec.toNat_setWidth_of_le (by decide)

/-- Settles O44: RUN and FAULT are no wait. -/
theorem keyPressNeedsTheWait : Obligations.KeyPressNeedsTheWait := by
  unfold Obligations.KeyPressNeedsTheWait
  exact fun s k h => congrArg _ (s.keyPress_of_not_waiting h k)

/-! ### SetKeys and TimerTick -/

section
variable {s : State}

theorem Machine.State.setKeys_frame (s : State) (m : Word) : OnlyChanges [.key] [] s (s.setKeys m) :=
  ⟨fun p hp => by cases p <;> simp_all [Part.Same], fun r _ => s.setKeys_reg m r⟩

theorem Machine.State.timerTick_frame (s : State) : OnlyChanges [.dt, .st] [] s s.timerTick := by
  unfold State.timerTick
  split
  · exact (s.setDt_frame _).trans (State.setSt_frame _ _)
  · exact .refl _ _ s

theorem Machine.State.isFault_iff : s.status.isFault = true ↔ s.Faulted := by
  cases hstatus : s.status <;> simp [State.Faulted, Status.isFault, hstatus]

theorem Machine.State.timerTick_of_ticking (henabled : s.config.timerTickEnabled = true) (hfault : ¬s.Faulted) :
    s.timerTick = (s.setDt (tickDown s.dt)).setSt (tickDown s.st) := by
  rw [← State.isFault_iff, Bool.not_eq_true] at hfault
  simp [State.timerTick, henabled, hfault]

theorem Machine.State.timerTick_of_stopped (h : s.config.timerTickEnabled = false ∨ s.Faulted) : s.timerTick = s := by
  rw [← State.isFault_iff] at h
  obtain h | h := h <;> simp [State.timerTick, h]

theorem Machine.State.ticking_or_stopped (s : State) :
    (s.config.timerTickEnabled = true ∧ ¬s.Faulted) ∨ s.config.timerTickEnabled = false ∨ s.Faulted := by
  cases s.config.timerTickEnabled <;> simp [em']

end

theorem Machine.tickDown_toNat (b : Byte) : (tickDown b).toNat = b.toNat - 1 := by
  have hb : b.toNat < 256 := b.isLt
  unfold tickDown
  split
  · exact Nat.mod_eq_of_lt (by omega)
  · omega

/-- Settles O46: the mask's bits, key by key. -/
theorem setKeysWritesTheMask : Obligations.SetKeysWritesTheMask := by
  unfold Obligations.SetKeysWritesTheMask
  refine fun s m => ⟨_, rfl, fun k => ?_, s.setKeys_frame m⟩
  simp [State.setKeys, Vector.get_eq_getElem]

/-- Settles O47: both timers tick, or neither. -/
theorem timerTickCountsDown : Obligations.TimerTickCountsDown := by
  unfold Obligations.TimerTickCountsDown
  refine fun s => ⟨_, rfl, s.timerTick_frame, fun henabled hfault => ?_, State.timerTick_of_stopped⟩
  rw [State.timerTick_of_ticking henabled hfault]
  exact ⟨tickDown_toNat s.dt, tickDown_toNat s.st⟩

/-! ### Actions that commute -/

namespace Machine
variable (s : State) (m : Word) (k : Nibble)

theorem State.setKeys_timerTick : (s.setKeys m).timerTick = s.timerTick.setKeys m := by
  simp only [State.timerTick, State.setKeys_config, State.setKeys_status, State.setKeys_dt, State.setKeys_st]
  by_cases hticks : (s.config.timerTickEnabled && !s.status.isFault) = true
  · simp only [hticks]
    rfl
  · simp only [hticks]
    rfl

theorem State.withKey_keyPress (key : Vector Bool 16) :
    ({ s with key := key } : State).keyPress k = { s.keyPress k with key := key } := by
  simp only [State.keyPress]
  split <;> rfl

theorem State.setKeys_keyPress : (s.setKeys m).keyPress k = (s.keyPress k).setKeys m := s.withKey_keyPress k _

theorem State.setTimers_keyPress (dt st : Byte) :
    ((s.setDt dt).setSt st).keyPress k = ((s.keyPress k).setDt dt).setSt st := by
  simp only [State.keyPress, State.setSt_status, State.setDt_status]
  split <;> rfl

/-- A key press faults nothing and clears no fault. -/
theorem State.keyPress_faulted_iff : (s.keyPress k).Faulted ↔ s.Faulted := by
  simp only [State.Faulted, State.keyPress]
  split <;> simp [*]

theorem State.timerTick_keyPress : s.timerTick.keyPress k = (s.keyPress k).timerTick := by
  obtain ⟨henabled, hfault⟩ | hstopped := s.ticking_or_stopped
  · have hticks : (s.keyPress k).timerTick = ((s.keyPress k).setDt (tickDown s.dt)).setSt (tickDown s.st) := by
      rw [State.timerTick_of_ticking (by simpa using henabled) (by rwa [State.keyPress_faulted_iff]),
        State.keyPress_dt, State.keyPress_st]
    rw [State.timerTick_of_ticking henabled hfault, hticks, State.setTimers_keyPress]
  · have hidle : (s.keyPress k).timerTick = s.keyPress k :=
      State.timerTick_of_stopped (by rwa [State.keyPress_faulted_iff, State.keyPress_config])
    rw [State.timerTick_of_stopped hstopped, hidle]

/-- The first press ends the wait. -/
theorem State.keyPress_keyPress (j : Nibble) : (s.keyPress k).keyPress j = s.keyPress k := by
  refine State.keyPress_of_not_waiting (fun x => ?_) j
  by_cases hwait : ∃ x, s.status = .waitKey x
  · obtain ⟨y, hwait⟩ := hwait
    rw [s.keyPress_of_waitKey hwait]
    exact Status.noConfusion
  · rw [s.keyPress_of_not_waiting (not_exists.mp hwait)]
    exact not_exists.mp hwait x

end Machine

/-- Settles O48: pair by pair. -/
theorem hostActionsCommute : Obligations.HostActionsCommute := by
  unfold Obligations.HostActionsCommute
  exact fun s m k j =>
    ⟨s.setKeys_timerTick m, s.setKeys_keyPress m k, s.timerTick_keyPress k, s.keyPress_keyPress k j⟩

/-! ### Runs in which nothing but the keys and the timers moves -/

/-- A run keeps what each of its actions keeps, as long as every action keeps the ground it stands on. -/
theorem runActions_frame {parts : List Part} {regs : List Reg} {ground : State → Prop} {actions : List HostAction}
    (hact : ∀ a ∈ actions, ∀ s t, ground s → act s a = .next t → ground t ∧ OnlyChanges parts regs s t) {s t : State}
    (hs : ground s) (h : runActions s actions = .next t) : OnlyChanges parts regs s t := by
  induction actions generalizing s with
  | nil =>
    obtain rfl := Host.Outcome.next.inj h
    exact .refl _ _ s
  | cons a rest ih =>
    obtain ⟨u, hfirst⟩ := act_completes s a
    obtain ⟨hu, hframe⟩ := hact a List.mem_cons_self s u hs hfirst
    rw [runActions_cons hfirst] at h
    exact (hframe.trans (ih (fun b hb => hact b (List.mem_cons_of_mem a hb)) hu h)).mono (by simp) (by simp)

theorem act_of_waiting {x : Reg} {a : HostAction} (ha : ∀ k, a ≠ .keyPress k) {s t : State}
    (hs : s.status = .waitKey x) (h : act s a = .next t) :
    t.status = .waitKey x ∧ OnlyChanges [.key, .dt, .st] [] s t := by
  cases a with
  | step =>
    obtain rfl := Host.Outcome.next.inj ((step_waitKey hs).symm.trans h)
    exact ⟨hs, .refl _ _ s⟩
  | setKeys m =>
    obtain rfl := Host.Outcome.next.inj h
    exact ⟨(s.setKeys_status m).trans hs, (s.setKeys_frame m).mono (by simp) (by simp)⟩
  | keyPress k => exact absurd rfl (ha k)
  | timerTick =>
    obtain rfl := Host.Outcome.next.inj h
    exact ⟨s.timerTick_status.trans hs, s.timerTick_frame.mono (by simp) (by simp)⟩

theorem act_of_faulted {a : HostAction} {s t : State} (hs : s.Faulted) (h : act s a = .next t) :
    t.Faulted ∧ OnlyChanges [.key] [] s t := by
  have ⟨kind, pc, w, hstatus⟩ := hs
  cases a with
  | step =>
    obtain rfl := Host.Outcome.next.inj ((step_fault hstatus).symm.trans h)
    exact ⟨hs, .refl _ _ s⟩
  | setKeys m =>
    obtain rfl := Host.Outcome.next.inj h
    exact ⟨⟨kind, pc, w, (s.setKeys_status m).trans hstatus⟩, s.setKeys_frame m⟩
  | keyPress k =>
    have hidle : s.keyPress k = s := s.keyPress_of_not_waiting (by simp [hstatus]) k
    obtain rfl := hidle.symm.trans (Host.Outcome.next.inj h)
    exact ⟨hs, .refl _ _ s⟩
  | timerTick =>
    obtain rfl := (State.timerTick_of_stopped (.inr hs)).symm.trans (Host.Outcome.next.inj h)
    exact ⟨hs, .refl _ _ s⟩

/-- Settles O43: the wait is entered by the one instruction that sets it, and every action but KeyPress holds it. -/
theorem onlyKeyPressLeavesTheWait : Obligations.OnlyKeyPressLeavesTheWait := by
  unfold Obligations.OnlyKeyPressLeavesTheWait
  refine ⟨fun i s t x hrun h hwait => ?_, fun s t x actions hwait hno h => ?_⟩
  · obtain hkept | ⟨-, -, rfl⟩ | ⟨nnn, -, -, rfl⟩ | ⟨y, hi, rfl⟩ := exec_status_cases h
    · cases hwait.symm.trans (hkept.trans hrun)
    · cases hwait
    · cases hwait
    · cases hwait
      exact hi
  · exact runActions_frame (ground := fun s => s.status = .waitKey x)
      (fun a ha s t => act_of_waiting fun k hk => hno k (hk ▸ ha)) hwait h

/-- Settles O45: every action holds a fault. -/
theorem faultIsFinal : Obligations.FaultIsFinal := by
  unfold Obligations.FaultIsFinal
  exact fun s t actions hfault => runActions_frame (ground := State.Faulted) (fun a _ s t => act_of_faulted) hfault

end Sys2Proof
end

section
/-!
SUPPORT. Memory and its transfers (20_memory.md; 44_index_memory.md; 70_reset_and_hazards.md R280): the canonical form
determines the data, a stored list of bytes is read back, and what FX33, FX55, FX65 and Create do follows from that.
-/

namespace Sys2Proof

open Machine

/-! ### The canonical form determines the data -/

theorem Machine.Memory.find_eq_some_iff {m : Memory} (hrising : m.Pairwise fun c d => c.1 < d.1) (a : Nat) (b : Byte) :
    Memory.find m a = some b ↔ (a, b) ∈ m := by
  induction m with
  | nil => simp [Memory.find]
  | cons c rest ih =>
    obtain ⟨hc, hrest⟩ := List.pairwise_cons.mp hrising
    simp only [Memory.find, List.mem_cons]
    by_cases hca : c.1 = a
    · have habsent : (a, b) ∉ rest := fun hmem => (hc _ hmem).ne hca
      simp [hca, habsent, Prod.ext_iff, eq_comm]
    · have hne : (a, b) ≠ c := fun h => hca (h ▸ rfl)
      simp [hca, hne, ih hrest]

theorem Machine.Memory.nodup_of_rising {m : Memory} (hrising : m.Pairwise fun c d => c.1 < d.1) : m.Nodup :=
  hrising.imp fun hlt => ne_of_apply_ne Prod.fst hlt.ne

/-- An entry is listed exactly where reading gives it and the boot content does not. -/
theorem Machine.Memory.mem_iff_read {font : Font} {m : Memory} (hwf : Memory.wf font m) (a : Nat) (b : Byte) :
    (a, b) ∈ m ↔ a < 4096 ∧ b ≠ Memory.boot font a ∧ Memory.read font m a = b := by
  obtain ⟨hrising, hentries⟩ := hwf
  constructor
  · intro hmem
    obtain ⟨ha, hb⟩ := hentries _ hmem
    have hfind : Memory.find m a = some b := (Memory.find_eq_some_iff hrising a b).mpr hmem
    exact ⟨ha, hb, by simp [Memory.read, hfind]⟩
  · rintro ⟨-, hb, hread⟩
    cases hfind : Memory.find m a with
    | none => exact absurd (by simp [← hread, Memory.read, hfind]) hb
    | some b' =>
      have hb' : b' = b := by simpa [Memory.read, hfind] using hread
      exact (Memory.find_eq_some_iff hrising a b).mp (hb' ▸ hfind)

/-- Settles O11: reading determines the entries, and the rising addresses their order. -/
theorem canonicalMemoryIsUnique : Obligations.CanonicalMemoryIsUnique := by
  unfold Obligations.CanonicalMemoryIsUnique
  intro font m k hm hk hread
  have hentries : ∀ c, c ∈ m ↔ c ∈ k := fun (a, b) => by
    rw [Memory.mem_iff_read hm, Memory.mem_iff_read hk]
    exact and_congr_right fun ha => by rw [hread a ha]
  obtain ⟨hmRising, -⟩ := hm
  obtain ⟨hkRising, -⟩ := hk
  have hperm : m.Perm k :=
    (List.perm_ext_iff_of_nodup (Memory.nodup_of_rising hmRising) (Memory.nodup_of_rising hkRising)).mpr hentries
  exact hperm.eq_of_pairwise (fun c d _ _ hcd hdc => (lt_asymm hcd hdc).elim) hmRising hkRising

/-! ### Reading back a stored list of bytes -/

namespace Machine

theorem State.memRead_memWriteList_of_ne (bytes : List Byte) (s : State) (n a : Nat)
    (h : ∀ k < bytes.length, a % 4096 ≠ (n + k) % 4096) : (s.memWriteList n bytes).memRead a = s.memRead a := by
  induction bytes generalizing s n with
  | nil => rfl
  | cons b rest ih =>
    have hrest : ∀ k < rest.length, a % 4096 ≠ (n + 1 + k) % 4096 := fun k hk => by
      rw [Nat.add_assoc, Nat.add_comm 1 k]
      exact h (k + 1) (Nat.succ_lt_succ hk)
    have hfirst : a % 4096 ≠ n % 4096 := h 0 (Nat.succ_pos _)
    rw [State.memWriteList, ih (s.memWrite n b) (n + 1) hrest, State.memRead_memWrite, if_neg hfirst]

/-- Up to 4096 bytes do not overwrite each other. -/
theorem State.memRead_memWriteList (bytes : List Byte) (s : State) (n : Nat) (hlength : bytes.length ≤ 4096) (k : Nat)
    (hk : k < bytes.length) : (s.memWriteList n bytes).memRead (n + k) = bytes[k] := by
  induction bytes generalizing s n k with
  | nil => cases hk
  | cons b rest ih =>
    rw [List.length_cons] at hlength
    rw [State.memWriteList]
    cases k with
    | zero =>
      have hlater : ∀ j < rest.length, (n + 0) % 4096 ≠ (n + 1 + j) % 4096 := fun j hj => by omega
      rw [State.memRead_memWriteList_of_ne rest _ _ _ hlater, State.memRead_memWrite]
      exact if_pos rfl
    | succ k =>
      have hread := ih (s.memWrite n b) (n + 1) (by omega) k (Nat.lt_of_succ_lt_succ hk)
      rwa [Nat.add_assoc, Nat.add_comm 1 k] at hread

/-- A list of bytes changes only the addresses it is stored at. -/
theorem State.memWriteList_onlyStores (s : State) (n : Nat) (bytes : List Byte) :
    OnlyStores ((List.range bytes.length).map (n + ·)) s (s.memWriteList n bytes) := by
  intro a ha
  refine State.memRead_memWriteList_of_ne bytes s n a fun k hk heq => ha ?_
  rw [List.map_map]
  exact List.mem_map.mpr ⟨k, List.mem_range.mpr hk, heq.symm⟩

/-- Stores leave I and the registers, so PC alone goes on beside memory. -/
theorem State.memWriteList_advance_effect (s : State) (n : Nat) (bytes : List Byte) :
    (s.memWriteList n bytes).advance.pc = s.pc + 2#16 ∧
      OnlyChanges [.mem, .pc] [] s (s.memWriteList n bytes).advance :=
  ⟨State.advance_pc_of_same, (s.memWriteList_frame n bytes).trans (State.advance_frame _)⟩

end Machine

/-! ### Create -/

theorem Machine.State.init_memRead (c : Config) (a : Nat) :
    (State.init c).memRead a = Memory.boot c.font (a % 4096) := rfl

theorem Machine.Memory.boot_of_ge (font : Font) {a : Nat} (h : 80 ≤ a) : Memory.boot font a = 0x00#8 :=
  dif_neg (Nat.not_lt.mpr h)

theorem Machine.Memory.boot_font (font : Font) (a : Fin 80) : Memory.boot font a.val = font.get a := by
  simp [Memory.boot, Vector.get_eq_getElem]

/-- Settles O49: the program is stored over boot content that is the font and zeros. -/
theorem createBuildsTheState : Obligations.CreateBuildsTheState := by
  unfold Obligations.CreateBuildsTheState
  intro c program
  refine ⟨create_of_too_long c, fun hfits => ⟨_, create_of_fits c hfits, ?_⟩⟩
  have outside : ∀ a, a < 4096 → (a < 0x200 ∨ 0x200 + program.length ≤ a) →
      ((State.init c).memWriteList 0x200 program).memRead a = Memory.boot c.font a := fun a ha hout => by
    rw [State.memRead_memWriteList_of_ne program _ _ _ fun k hk => by omega, State.init_memRead, Nat.mod_eq_of_lt ha]
  refine ⟨fun a => ?_, fun k => ?_, fun a hfont hlow => ?_, fun a hhigh ha => ?_, fun r => ?_, ?_⟩
  · rw [outside a.val (by omega) (.inl (by omega)), Memory.boot_font]
  · exact State.memRead_memWriteList program _ _ (by omega) k.val k.isLt
  · rw [outside a (by omega) (.inl hlow), Memory.boot_of_ge c.font hfont]
  · rw [outside a ha (.inr hhigh), Memory.boot_of_ge c.font (by omega)]
  · simp [State.init, State.reg, Vector.get_eq_getElem]
  · simp [State.init, State.cell, Vector.get_eq_getElem, pcReset]

/-- Settles O50: the zero word is SYS 0. -/
theorem resetIsTheEmptyCreation : Obligations.ResetIsTheEmptyCreation := by
  unfold Obligations.ResetIsTheEmptyCreation
  exact ⟨rfl, rfl, rfl, rfl, rfl, rfl⟩

/-! ### The index register -/

theorem exec_ldI (nnn : Addr12) (s : State) : exec (.ldI nnn) s = .next (s.setI nnn.toNat).advance := rfl

theorem exec_addIVx (x : Reg) (s : State) :
    exec (.addIVx x) s = .next (s.setI (s.i.toNat + (s.reg x).toNat)).advance := rfl

/-- Settles O51: 12 bits fit into I. -/
theorem loadIndex : Obligations.LoadIndex := by
  unfold Obligations.LoadIndex
  refine fun nnn => ⟨decode_ldI nnn, fun s => ⟨_, exec_ldI nnn s, ?_⟩⟩
  obtain ⟨hi, hpc, hframe⟩ := s.setI_advance_effect nnn.toNat
  exact ⟨hi.trans (Nat.mod_eq_of_lt nnn.isLt), hpc, hframe⟩

/-- Settles O52: I takes the low 12 bits of the sum. -/
theorem addIndexWraps : Obligations.AddIndexWraps := by
  unfold Obligations.AddIndexWraps
  exact fun x => ⟨decode_addIVx x, fun s => ⟨_, exec_addIVx x s, s.setI_advance_effect _⟩⟩

/-! ### FX33 -/

theorem exec_ldBVx (x : Reg) (s : State) :
    exec (.ldBVx x) s = .next (s.memWriteList s.i.toNat (bcdDigits (s.reg x))).advance := rfl

/-- Settles O54: the three digits are a stored list of three bytes. -/
theorem bcdStoresThreeDigits : Obligations.BcdStoresThreeDigits := by
  unfold Obligations.BcdStoresThreeDigits
  refine fun x => ⟨decode_ldBVx x, fun s => ⟨_, exec_ldBVx x s, ?_⟩⟩
  have hbyte : (s.reg x).toNat < 256 := (s.reg x).isLt
  have digit : ∀ d < 256, (trunc8 d).toNat = d := fun d hd => Nat.mod_eq_of_lt hd
  have hread := State.memRead_memWriteList (bcdDigits (s.reg x)) s s.i.toNat (show 3 ≤ 4096 by decide)
  refine ⟨?_, ?_, ?_, s.memWriteList_onlyStores s.i.toNat (bcdDigits (s.reg x)),
    s.memWriteList_advance_effect s.i.toNat (bcdDigits (s.reg x))⟩
  · exact (congrArg BitVec.toNat (hread 0 (show 0 < 3 by decide))).trans (digit _ (by omega))
  · exact (congrArg BitVec.toNat (hread 1 (show 1 < 3 by decide))).trans (digit _ (by omega))
  · exact (congrArg BitVec.toNat (hread 2 (show 2 < 3 by decide))).trans (digit _ (by omega))

/-! ### FX55 -/

/-- V0 to V(n-1). -/
def Machine.State.firstRegs (s : State) (n : Nat) : List Byte := (List.range n).map fun k => s.reg (regNumber k)

theorem Machine.State.firstRegs_length (s : State) (n : Nat) : (s.firstRegs n).length = n := by
  simp [State.firstRegs]

theorem Machine.State.storeRegList_eq_memWriteList (k n : Nat) (s : State) :
    (List.range' k n).foldl State.storeReg s =
      s.memWriteList (s.i.toNat + k) ((List.range' k n).map fun k => s.reg (regNumber k)) := by
  induction n generalizing k s with
  | zero => rfl
  | succ n ih =>
    rw [List.range'_succ, List.foldl_cons, ih]
    rfl

/-- FX55's loop stores the registers as one list of bytes: no store changes I or a register. -/
theorem Machine.State.storeRegs_eq_memWriteList (n : Nat) (s : State) :
    State.storeRegs n s = s.memWriteList s.i.toNat (s.firstRegs n) := by
  rw [State.storeRegs, State.firstRegs, List.range_eq_range']
  exact State.storeRegList_eq_memWriteList 0 n s

theorem exec_ldMemVx (x : Reg) (s : State) :
    exec (.ldMemVx x) s = .next (s.memWriteList s.i.toNat (s.firstRegs (x.toNat + 1))).advance := by
  rw [← State.storeRegs_eq_memWriteList]
  rfl

/-- Settles O55: V0 to Vx are at most 16 bytes, so none overwrites another. -/
theorem dumpStoresRegisters : Obligations.DumpStoresRegisters := by
  unfold Obligations.DumpStoresRegisters
  refine fun x => ⟨decode_ldMemVx x, fun s => ⟨_, exec_ldMemVx x s, fun r hr => ?_, ?_,
    s.memWriteList_advance_effect s.i.toNat (s.firstRegs (x.toNat + 1))⟩⟩
  · have hx : x.toNat < 16 := x.isLt
    have hread := State.memRead_memWriteList (s.firstRegs (x.toNat + 1)) s s.i.toNat
      (by rw [s.firstRegs_length]; omega) r.toNat (by rw [s.firstRegs_length]; omega)
    rw [State.advance_memRead, hread]
    simp [State.firstRegs, regNumber]
  · have hstores := s.memWriteList_onlyStores s.i.toNat (s.firstRegs (x.toNat + 1))
    rwa [s.firstRegs_length] at hstores

/-- Settles O58: the two bytes of the word are V0 and V1, wherever in MEM or around its end I points. -/
theorem storedWordIsFetched : Obligations.StoredWordIsFetched := by
  unfold Obligations.StoredWordIsFetched
  intro x s hx hrun
  obtain ⟨-, hdump⟩ := dumpStoresRegisters x
  obtain ⟨t, hnext, hread, -, -, hframe, -⟩ := hdump s
  have hhigh : (t.jump s.i).memRead (s.i.toNat % 4096) = s.reg 0x0#4 := by
    rw [State.memRead_mod]
    exact hread 0x0#4 (Nat.zero_le _)
  have hlow : (t.jump s.i).memRead ((s.i.toNat + 1) % 65536 % 4096) = s.reg 0x1#4 := by
    rw [Nat.mod_mod_of_dvd _ (by decide), State.memRead_mod]
    exact hread 0x1#4 hx
  have hword : (t.jump s.i).fetch.toNat = 256 * (s.reg 0x0#4).toNat + (s.reg 0x1#4).toNat := by
    rw [fetchIsBigEndian (t.jump s.i), State.jump_pc, hhigh, hlow]
  have hkept : t.status = s.status := hframe .status (by simp)
  have hstatus : (t.jump s.i).status = .run := hkept.trans hrun
  have hfetch : (t.jump s.i).fetch = s.reg 0x0#4 ++ s.reg 0x1#4 :=
    BitVec.eq_of_toNat_eq (hword.trans (wordOfBytes_toNat _ _).symm)
  exact ⟨t, hnext, hword, by rw [step_run hstatus, hfetch]⟩

/-! ### FX65 -/

theorem exec_ldVxMem (x : Reg) (s : State) : exec (.ldVxMem x) s = .next (State.loadRegs (x.toNat + 1) s).advance := rfl

theorem Machine.State.loadRegs_succ (n : Nat) (s : State) :
    State.loadRegs (n + 1) s = (State.loadRegs n s).setReg (regNumber n) (s.memRead (s.i.toNat + n)) := by
  rw [State.loadRegs, List.range_succ, List.foldl_append]
  change (State.loadRegs n s).setReg (regNumber n) ((State.loadRegs n s).memRead ((State.loadRegs n s).i.toNat + n)) = _
  rw [State.loadRegs_memRead, State.loadRegs_i]

/-- FX65's loop over at most 16 registers fills each of them once. -/
theorem Machine.State.loadRegs_reg (n : Nat) (hn : n ≤ 16) (s : State) (r : Reg) (hr : r.toNat < n) :
    (State.loadRegs n s).reg r = s.memRead (s.i.toNat + r.toNat) := by
  induction n with
  | zero => cases hr
  | succ n ih =>
    rw [State.loadRegs_succ, State.reg_setReg]
    have hnumber : (regNumber n).toNat = n := Nat.mod_eq_of_lt (by omega)
    by_cases hlast : r = regNumber n
    · rw [if_pos hlast, hlast, hnumber]
    · have hne : r.toNat ≠ n := fun h => hlast (BitVec.eq_of_toNat_eq (h.trans hnumber.symm))
      rw [if_neg hlast, ih (by omega) (by omega)]

/-- Settles O56: each register up to Vx is filled from its own address. -/
theorem loadFillsRegisters : Obligations.LoadFillsRegisters := by
  unfold Obligations.LoadFillsRegisters
  refine fun x => ⟨decode_ldVxMem x, fun s => ⟨_, exec_ldVxMem x s, fun r hr => ?_, State.advance_pc_of_same, ?_⟩⟩
  · exact State.loadRegs_reg (x.toNat + 1) x.isLt s r (Nat.lt_succ_of_le hr)
  · exact (exec_frame (exec_ldVxMem x s)).mono (List.Subset.refl _) (List.Subset.refl _)

/-- Settles O57: the addresses that FX65 reads are those that FX55 wrote. -/
theorem dumpThenLoadRestores : Obligations.DumpThenLoadRestores := by
  unfold Obligations.DumpThenLoadRestores
  intro x s
  obtain ⟨-, hdump⟩ := dumpStoresRegisters x
  obtain ⟨-, hload⟩ := loadFillsRegisters x
  obtain ⟨t, hnext, hstored, -, -, hframe, -⟩ := hdump s
  refine ⟨t, hnext, fun t' hmem hi => ?_⟩
  obtain ⟨u, hnext', hloaded, -⟩ := hload t'
  have hindex : t'.i = s.i := hi.trans (hframe .i (by simp))
  exact ⟨u, hnext', fun r hr => by rw [hloaded r hr, hindex, hmem, hstored r hr]⟩

end Sys2Proof
end
